-- ==== Sys2Proof/Word.lean ====
section
/-! DEFINITION. The widths of this hardware (spec/00_scope.md R12; spec/10_state.md R35 to R37): bytes, 16-bit registers and
32-bit command words. Every value is unsigned (00_scope.md R19). -/

namespace Sys2Proof

/-- A byte: a data byte, a device address byte, a sub-address, a switch mask (00_scope.md R12). -/
abbrev Byte := BitVec 8

/-- A 16-bit register: LEN, IDX, TD.N, STATUS (10_state.md R32, R36, R37, R42), and a port message word (R149). -/
abbrev Half := BitVec 16

/-- A 32-bit command word (30_encoding.md R110). -/
abbrev Word := BitVec 32

end Sys2Proof
end

