-- ==== Sys2Proof/Config.lean ====
section
/-! DEFINITION. The parameters of an instance of the block (00_scope.md R10; 93_implementation_defined.md U11 to U15) and
the free values. A parameter is a field of `Config`, carried unchanged in every state (log 4), so that a statement over all
states is a statement over every instance. -/

namespace Sys2Proof

/-- DESIGN CHOICE (log 10): the type `PFInfo` of the information a primitive fault carries, which the spec leaves open
(10_state.md R45). The block copies it and never inspects it. -/
structure PFInfo where
  info : Nat
  deriving DecidableEq, Repr

/-- Three bytes in wire order: XB, and the parameter X24_DIR_BYTES (10_state.md R38). -/
structure Bytes3 where
  b0 : Byte
  b1 : Byte
  b2 : Byte
  deriving DecidableEq, Repr

/-- X24_LANES: the lane of the 24-bit value that goes on the wire first, second and third (44_adapter_exp24.md R243). -/
structure Lanes where
  first : Fin 3
  second : Fin 3
  third : Fin 3
  deriving DecidableEq, Repr

/-- The parameters of 00_scope.md R10. A default is given exactly where that rule gives one; STOP_AFTER_START_FAULT is
93_implementation_defined.md U11, default true. -/
structure Config where
  /-- NBUS, 1 .. 256. -/
  nbus : Nat
  /-- MAXLEN, 1 .. 65535. -/
  maxlen : Nat
  /-- SW_BUS, below NBUS. -/
  swBus : Byte
  /-- SW_ADDR. -/
  swAddr : Byte := 0xe8
  /-- X24_BUS, below NBUS. -/
  x24Bus : Byte
  /-- X24_ADDR. -/
  x24Addr : Byte := 0x44
  /-- X8_BUS, below NBUS. -/
  x8Bus : Byte
  /-- X8_ADDR. -/
  x8Addr : Byte := 0x7c
  /-- X24_DIR_SUB. -/
  x24DirSub : Byte
  /-- X24_DIR_BYTES. -/
  x24DirBytes : Bytes3
  /-- X24_OUT_SUB. -/
  x24OutSub : Byte
  /-- X24_LANES, a permutation of (0, 1, 2); default little-endian (90_conflicts.md C1). -/
  x24Lanes : Lanes := ⟨0, 1, 2⟩
  /-- STOP_AFTER_START_FAULT (log 11): whether a faulted Start is followed by a Stop (41_sequencer_fsm.md R174). -/
  stopAfterStartFault : Bool := true
  deriving DecidableEq, Repr

/-- X24_LANES is a permutation. -/
def Lanes.isPermutation (l : Lanes) : Bool :=
  l.first != l.second && l.first != l.third && l.second != l.third

/-- The ranges of 00_scope.md R10. -/
def Config.wf (c : Config) : Bool :=
  decide (1 ≤ c.nbus) && decide (c.nbus ≤ 256) && decide (1 ≤ c.maxlen) && decide (c.maxlen ≤ 65535) &&
    decide (c.swBus.toNat < c.nbus) && decide (c.x24Bus.toNat < c.nbus) && decide (c.x8Bus.toNat < c.nbus) &&
    c.x24Lanes.isPermutation

/-- Free value (log 5): what IDX holds in a state other than S_WDATA and S_READ, "unspecified (`any value`)" by
10_state.md R32. The step applies it to a counter it advances, so each such value is unrelated to every other. -/
opaque Config.freeIdx : Nat → Half

end Sys2Proof
end

