-- ==== Sys2Proof/Machine/Built.lean ====
section
/-! DEFINITION. The one instance of the block that `State.reset` stands for. The spec leaves NBUS, MAXLEN, the three bus numbers and
the three X24 register constants OPEN; these are the example values of spec/95_test_vectors.md, "Conventions" (DESIGN CHOICE,
log 4). No operation of the machine reads this definition: each reads the configuration its state carries. -/

namespace Sys2Proof

/-- DESIGN CHOICE (log 4): the instance parameters of 95_test_vectors.md, "Conventions". -/
def Config.built : Config where
  nbus := 2
  maxlen := 16
  swBus := 0
  x24Bus := 0
  x8Bus := 0
  x24DirSub := 0x8c
  x24DirBytes := ⟨0x00, 0x00, 0x00⟩
  x24OutSub := 0x84

end Sys2Proof
end

