-- ==== Sys2Proof/Machine/Memory.lean ====
section
/-! DEFINITION. The byte buffer BUF as a sparse list of (index, byte) cells (20_memory.md R70), indices strictly rising. An
index that is not listed holds NO value (R74), so no listed cell can equal what an unlisted index reads as. -/

namespace Sys2Proof.Machine

/-- The contents of BUF: the entries the host or an RDM has written since reset. -/
abbrev Memory := List Host.Cell

/-- The byte at index `i`, if one was ever written (R74). -/
def Memory.read (m : Memory) (i : Nat) : Option (BitVec 8) :=
  match m with
  | [] => none
  | (j, v) :: rest => if i = j then some v else Memory.read rest i

/-- Write one byte, keeping the indices strictly rising (R70, R80). -/
def Memory.write (m : Memory) (i : Nat) (v : BitVec 8) : Memory :=
  match m with
  | [] => [(i, v)]
  | (j, w) :: rest =>
    if i < j then (i, v) :: (j, w) :: rest
    else if i = j then (i, v) :: rest
    else (j, w) :: Memory.write rest i v

/-- Every index of `m` is above `i`. -/
def Memory.above (i : Nat) (m : Memory) : Bool :=
  m.all fun c => decide (i < c.1)

/-- The canonical form: indices strictly rising. -/
def Memory.wf (m : Memory) : Bool :=
  match m with
  | [] => true
  | (j, _) :: rest => Memory.above j rest && Memory.wf rest

/-- Every index of `m` is below `n` (20_memory.md R70: `0 .. MAXLEN-1`). -/
def Memory.below (n : Nat) (m : Memory) : Bool :=
  m.all fun c => decide (c.1 < n)

end Sys2Proof.Machine
end

