-- ==== Sys2Proof/Machine/State.lean ====
section
/-! DEFINITION. The state of the block (10_state.md R30 to R57), the inputs it reads (host operations, the environment's answers), the
trace it makes, the ways a step can stop, and the state after reset. Every field is plain data. -/

namespace Sys2Proof.Machine

/-- ST, the sequencer's position (10_state.md R31). Codes 11 to 15 do not exist (93_implementation_defined.md U21). -/
inductive SeqState where
  | idle
  | start
  | addr
  | data
  | sub
  | wdata
  | restart
  | addrR
  | read
  | stop
  | swsel
  deriving DecidableEq, Repr

/-- TD.KIND: which engine operation the transaction is (10_state.md R36). -/
inductive Kind where
  | poll
  | wrb
  | rdb
  | wrm
  | rdm
  deriving DecidableEq, Repr

/-- TD.SRC: where a WRM takes its bytes (10_state.md R36). -/
inductive Src where
  | buf
  | xb
  deriving DecidableEq, Repr

/-- TD, the transaction descriptor (10_state.md R36). -/
structure TD where
  kind : Kind
  bus : Byte
  addr : Byte
  arg : Byte
  flag : Bool
  n : Half
  src : Src
  deriving DecidableEq, Repr

/-- STATUS.PHASE: which acknowledge was unmet (10_state.md R43). -/
inductive Phase where
  | none
  | addr
  | data
  | subaddr
  | readAddr
  deriving DecidableEq, Repr

/-- The stored bits of STATUS (10_state.md R42); BUSY is derived from ST. -/
structure Status where
  done : Bool
  err : Bool
  pf : Bool
  ill : Bool
  phase : Phase
  /-- STATUS.OPEN. -/
  busOpen : Bool
  /-- STATUS.USEQ, which is the register USEQ (R33). -/
  useq : Bool
  ack : Bool
  deriving DecidableEq, Repr

/-- The six primitives (00_scope.md R21; 40_primitive_port.md R143 to R147, R151). -/
inductive Prim where
  | start
  | restart
  | stop
  | write (byte : Byte)
  | read (sendAck : Bool)
  | swsel (addr mask : Byte)
  deriving DecidableEq, Repr

/-- A request at the primitive port: a bus and a primitive with its argument (40_primitive_port.md R140). -/
structure Request where
  bus : Byte
  prim : Prim
  deriving DecidableEq, Repr

/-- A response of the environment (40_primitive_port.md R150): RKIND = OK with RVAL, or FAULT with information. DEDUCED (log 14): RVAL is
16 bits wide. -/
inductive Response where
  | ok (rval : Half)
  | fault (info : PFInfo)
  deriving DecidableEq, Repr

/-- One request with its answer: one entry of a trace (00_scope.md R22). -/
structure Exchange where
  request : Request
  response : Response
  deriving DecidableEq, Repr

/-- An operation of the host port (10_state.md R52, R53), or the reset input (R57; 70_reset_and_hazards.md R300). -/
inductive HostOp where
  | issue (w : Word)
  | setLen (v : Half)
  | bufWrite (i : Half) (v : Byte)
  | reset
  deriving DecidableEq, Repr

/-- The whole state. The first ten fields are the spec's tuple (10_state.md R30), the last five are the model's own. -/
structure State where
  /-- ST (R31). -/
  st : SeqState
  /-- CMD (R35). -/
  cmd : Word
  /-- LEN (R37). -/
  len : Half
  /-- IDX (R32), meaningful in S_WDATA and S_READ only. -/
  idx : Half
  /-- TD (R36). -/
  td : TD
  /-- XB (R38). -/
  xb : Bytes3
  /-- RDATA (R40). -/
  rdata : Byte
  /-- STATUS (R42), with USEQ (R33) and ACK (R41). -/
  status : Status
  /-- PFINFO (R45). -/
  pfinfo : PFInfo
  /-- BUF (R39). -/
  buf : List Host.Cell
  /-- The model's own (log 4): the parameters of this instance (00_scope.md R10, R51). No step changes them. -/
  cfg : Config
  /-- The model's own (log 2): the host's operations still to come, first one first. -/
  host : List HostOp
  /-- The model's own (log 1): the environment's answers still to come, first one first. -/
  answers : List Response
  /-- The model's own (log 3): the requests made so far with their answers, oldest first (60_exceptions.md R281). -/
  trace : List Exchange
  /-- The model's own (log 5): how many free values have been used. -/
  free : Nat
  deriving DecidableEq, Repr

/-- Why the machine stops. Each is safe: the model stops where the block would go on or could not be. -/
inductive Fault where
  /-- Raised by BufRead of an entry never written (20_memory.md R74, "a fault of the model"; log 7). Safe. -/
  | bufUnwritten (i : Nat)
  /-- Raised by an access to BUF at an index that does not exist (20_memory.md R70; log 8). Safe. -/
  | bufOutOfRange (i : Nat)
  /-- Raised by a read of XB at an index that does not exist (10_state.md R38; log 8). Safe, and no legal run reaches it. -/
  | xbOutOfRange (i : Nat)
  /-- Raised by a primitive step in a pair of ST and TD.KIND or CMD that no rule covers (41_sequencer_fsm.md R183; log 9).
  Safe, and no legal run reaches it. -/
  | noTransition (st : SeqState)
  deriving DecidableEq, Repr

/-- Why the model gives no meaning. -/
inductive Refusal where
  /-- Raised by exec for an instruction that has no meaning yet. Safe. -/
  | notModelled (mnemonic : String)
  /-- Raised by a host read of RDATA, PFINFO or BUF unless ST = IDLE and DONE = 1 (10_state.md R54; 70_reset_and_hazards.md R312;
  log 15); never by a step. Safe. -/
  | hostReadNotAllowed
  deriving DecidableEq, Repr

/-- TD right after reset, unspecified by R57: DESIGN CHOICE (log 6). -/
def TD.reset : TD := ⟨.poll, 0, 0, 0, false, 0, .buf⟩

/-- STATUS right after reset: every bit 0, PHASE = NONE (10_state.md R57). -/
def Status.reset : Status := ⟨false, false, false, false, .none, false, false, false⟩

/-- The state of instance `c` right after reset (10_state.md R57). ST, STATUS, RDATA, LEN are the spec's values and BUF holds no
value; CMD, IDX, TD, XB, PFINFO are unspecified there: DESIGN CHOICE (log 6). No host operation and no answer is to come. -/
def State.resetOf (c : Config) : State where
  st := .idle
  cmd := 0
  len := 0
  idx := 0
  td := TD.reset
  xb := ⟨0, 0, 0⟩
  rdata := 0
  status := Status.reset
  pfinfo := ⟨0⟩
  buf := []
  cfg := c
  host := []
  answers := []
  trace := []
  free := 0

/-- The machine right after reset, on the instance `Config.built` (log 4). -/
def State.reset : State := State.resetOf Config.built

end Sys2Proof.Machine
end

