-- ==== Sys2Proof/Machine/Flags.lean ====
section
/-! DEFINITION. STATUS: its bits, its codes, the outcome read from it, and what issue, errors and the end of a command do to it
(10_state.md R31, R36, R42 to R44; 41_sequencer_fsm.md R162; 60_exceptions.md R260 to R266). -/

namespace Sys2Proof.Machine

/-- The 4-bit code of ST (10_state.md R31). -/
def SeqState.code (st : SeqState) : BitVec 4 :=
  match st with
  | .idle => 0
  | .start => 1
  | .addr => 2
  | .data => 3
  | .sub => 4
  | .wdata => 5
  | .restart => 6
  | .addrR => 7
  | .read => 8
  | .stop => 9
  | .swsel => 10

/-- The 3-bit code of TD.KIND (10_state.md R36). -/
def Kind.code (k : Kind) : BitVec 3 :=
  match k with
  | .poll => 1
  | .wrb => 2
  | .rdb => 3
  | .wrm => 4
  | .rdm => 5

/-- The bit of TD.SRC (10_state.md R36). -/
def Src.code (x : Src) : BitVec 1 :=
  match x with
  | .buf => 0
  | .xb => 1

/-- The 3-bit code of STATUS.PHASE (10_state.md R43). -/
def Phase.code (p : Phase) : BitVec 3 :=
  match p with
  | .none => 0
  | .addr => 1
  | .data => 2
  | .subaddr => 3
  | .readAddr => 4

/-- The human-readable description a BusProtocolError carries (10_state.md R43; 60_exceptions.md R261). -/
def Phase.message (p : Phase) : Option String :=
  match p with
  | .none => Option.none
  | .addr => some "failed to ack bus address"
  | .data => some "failed to ack write data"
  | .subaddr => some "failed to ack data address"
  | .readAddr => some "failed to ack bus read address"

/-- STATUS.BUSY: `ST != IDLE` (10_state.md R42). -/
def busy (s : State) : Bool := s.st != .idle

/-- STATUS as the host reads it, 16 bits (10_state.md R42). -/
def statusWord (s : State) : Half :=
  0#5 ++ BitVec.ofBool s.status.ack ++ BitVec.ofBool s.status.useq ++ BitVec.ofBool s.status.busOpen ++
    s.status.phase.code ++ BitVec.ofBool s.status.ill ++ BitVec.ofBool s.status.pf ++ BitVec.ofBool s.status.err ++
    BitVec.ofBool s.status.done ++ BitVec.ofBool (busy s)

/-- The outcome of a command (60_exceptions.md R260). -/
inductive CommandOutcome where
  | illegal
  | primFault (info : PFInfo)
  | protocolError (phase : Phase)
  | ok
  deriving DecidableEq, Repr

/-- The outcome of the last command, read once DONE = 1 (60_exceptions.md R260). -/
def outcome (s : State) : CommandOutcome :=
  if s.status.ill then .illegal
  else if s.status.pf then .primFault s.pfinfo
  else if s.status.err then .protocolError s.status.phase
  else .ok

/-- What every issue clears: DONE, ERR, PF, ILL, PHASE, USEQ (41_sequencer_fsm.md R162). OPEN and ACK are kept. -/
def Status.cleared (x : Status) : Status :=
  { x with done := false, err := false, pf := false, ill := false, phase := .none, useq := false }

/-- STATUS after an illegal word: cleared, then ILL and DONE set (41_sequencer_fsm.md R162; 30_encoding.md R108). -/
def Status.afterIllegal (x : Status) : Status :=
  { x.cleared with ill := true, done := true }

end Sys2Proof.Machine
end

