-- ==== Sys2Proof/Syntax.lean ====
section
/-! DEFINITION. The ten commands of the block, one constructor per row of spec/opcode_table.json (00_scope.md R4; 30_encoding.md
R100). The length `n` of WRM and RDM and the bytes of WRM are not in the word: they are LEN and BUF (R103). -/

namespace Sys2Proof

/-- A command, with the operands its word carries. -/
inductive Instr where
  /-- POLL bus, addr: probe a device (42_engine_ops.md R201). -/
  | poll (bus addr : Byte)
  /-- WRB bus, addr, data with the option `ackRequired` (42_engine_ops.md R203). -/
  | wrb (ackRequired : Bool) (bus addr data : Byte)
  /-- RDB bus, addr (42_engine_ops.md R204). -/
  | rdb (bus addr : Byte)
  /-- WRM bus, addr, sub with the option `ackLast` (42_engine_ops.md R206). -/
  | wrm (ackLast : Bool) (bus addr sub : Byte)
  /-- RDM bus, addr, sub (42_engine_ops.md R208). -/
  | rdm (bus addr sub : Byte)
  /-- SWSEL ch, `ch` in 0 .. 7 (43_adapter_switch.md R232). -/
  | swsel (ch : BitVec 3)
  /-- SWDES (43_adapter_switch.md R233). -/
  | swdes
  /-- X24SET value (44_adapter_exp24.md R241). -/
  | x24set (value : BitVec 24)
  /-- X8DRV data (45_adapter_exp8.md R251). -/
  | x8drv (data : Byte)
  /-- X8SNS (45_adapter_exp8.md R252). -/
  | x8sns
  deriving DecidableEq, Repr

end Sys2Proof
end

