-- ==== Sys2Proof/WellFormed.lean ====
section
/-! DEFINITION. The conditions a command meets beyond its encoding (30_encoding.md R104, last column): the bus exists, and
for WRM and RDM the length fits the buffer. Every other operand has exactly the width of its field, so that no ill-formed
value of it can be written down. -/

namespace Sys2Proof

/-- The BUS operand of a format E command (30_encoding.md R101); the driver commands carry none (R100). -/
def Instr.bus? (i : Instr) : Option Byte :=
  match i with
  | .poll bus _ => some bus
  | .wrb _ bus _ _ => some bus
  | .rdb bus _ => some bus
  | .wrm _ bus _ _ => some bus
  | .rdm bus _ _ => some bus
  | .swsel _ => none
  | .swdes => none
  | .x24set _ => none
  | .x8drv _ => none
  | .x8sns => none

/-- Whether the command takes its length from LEN (30_encoding.md R103). -/
def Instr.usesLen (i : Instr) : Bool :=
  match i with
  | .poll _ _ => false
  | .wrb _ _ _ _ => false
  | .rdb _ _ => false
  | .wrm _ _ _ _ => true
  | .rdm _ _ _ => true
  | .swsel _ => false
  | .swdes => false
  | .x24set _ => false
  | .x8drv _ => false
  | .x8sns => false

/-- `BUS < NBUS` for format E (30_encoding.md R104). -/
def Instr.busInRange (c : Config) (i : Instr) : Bool :=
  match i.bus? with
  | some bus => decide (bus.toNat < c.nbus)
  | none => true

/-- `LEN <= MAXLEN` for WRM and RDM (30_encoding.md R104). -/
def Instr.lenInRange (c : Config) (len : Half) (i : Instr) : Bool :=
  !i.usesLen || decide (len.toNat ≤ c.maxlen)

/-- The command is legal on instance `c` while LEN holds `len` (30_encoding.md R104, R105). -/
def Instr.wellFormed (c : Config) (len : Half) (i : Instr) : Bool :=
  i.busInRange c && i.lenInRange c len

end Sys2Proof
end

