-- ==== Sys2Proof/Decode.lean ====
section
/-! DEFINITION. Decoding a command word and encoding a command (30_encoding.md R101 to R110). `decode` reads the fields of the two
formats and rejects by name; `decodeAt` adds the two conditions that depend on the configuration and on LEN, and is the
spec's `Decode(w, LEN)` (R105). A command is one 32-bit word given at the host port and never stored as bytes, so it has no
byte order (R110; 20_memory.md R92). -/

namespace Sys2Proof

/-- Why a command word is illegal (30_encoding.md R107). -/
inductive Illegal where
  /-- `OP` in 0x0, 0x6, 0x7, 0xD, 0xE, 0xF. -/
  | reservedOpcode
  /-- bits 26:24 of format E or 27:24 of format D are not 0. -/
  | reservedBits
  /-- POLL, RDB or RDM with `F = 1`. -/
  | flagNotZero
  /-- POLL or RDB with `ARG != 0`. -/
  | argNotZero
  /-- SWSEL, SWDES, X8DRV or X8SNS with a must-be-zero bit of IMM24 set. -/
  | immNotZero
  /-- a format E word with `BUS >= NBUS`. -/
  | busOutOfRange
  /-- a WRM or RDM while `LEN > MAXLEN`. -/
  | lenAboveMax
  deriving DecidableEq, Repr

/-- The answer of the decoder. -/
inductive Decoded where
  | ok (i : Instr)
  | illegal (why : Illegal)
  deriving DecidableEq, Repr

/-- `OP`, bits 31:28 (R101, R102). -/
def opField (w : Word) : BitVec 4 := w.extractLsb' 28 4

/-- `F`, bit 27 of format E (R101). -/
def flagField (w : Word) : Bool := w.getLsbD 27

/-- The reserved bits 26:24 of format E (R101). -/
def reservedE (w : Word) : BitVec 3 := w.extractLsb' 24 3

/-- `BUS`, bits 23:16 of format E (R101). -/
def busField (w : Word) : Byte := w.extractLsb' 16 8

/-- `ADDR`, bits 15:8 of format E (R101). -/
def addrField (w : Word) : Byte := w.extractLsb' 8 8

/-- `ARG`, bits 7:0 of format E (R101); also `IMM24[7:0]` (R102). -/
def argField (w : Word) : Byte := w.extractLsb' 0 8

/-- The reserved bits 27:24 of format D (R102). -/
def reservedD (w : Word) : BitVec 4 := w.extractLsb' 24 4

/-- `IMM24`, bits 23:0 of format D (R102). -/
def immField (w : Word) : BitVec 24 := w.extractLsb' 0 24

/-- The channel `IMM24[2:0]` of SWSEL (R102). -/
def chField (w : Word) : BitVec 3 := w.extractLsb' 0 3

/-- `IMM24[23:3]`, must be 0 in SWSEL (R102). -/
def immAboveCh (w : Word) : BitVec 21 := w.extractLsb' 3 21

/-- `IMM24[23:8]`, must be 0 in X8DRV (R102). -/
def immAboveByte (w : Word) : BitVec 16 := w.extractLsb' 8 16

/-- Format E: reserved bits first, then the must-be-zero fields of the row (R101, R104). -/
def decodeE (w : Word) (flagAllowed argAllowed : Bool) (i : Instr) : Decoded :=
  if reservedE w ≠ 0 then .illegal .reservedBits
  else if flagField w && !flagAllowed then .illegal .flagNotZero
  else if argField w ≠ 0 && !argAllowed then .illegal .argNotZero
  else .ok i

/-- Format D: reserved bits first, then the must-be-zero part of IMM24 (R102, R104). -/
def decodeD (w : Word) (mustBeZeroIsZero : Bool) (i : Instr) : Decoded :=
  if reservedD w ≠ 0 then .illegal .reservedBits
  else if mustBeZeroIsZero then .ok i
  else .illegal .immNotZero

/-- The rows of 30_encoding.md R104, total on any word. -/
def decode (w : Word) : Decoded :=
  match opField w with
  | 0x1#4 => decodeE w false false (.poll (busField w) (addrField w))
  | 0x2#4 => decodeE w true true (.wrb (flagField w) (busField w) (addrField w) (argField w))
  | 0x3#4 => decodeE w false false (.rdb (busField w) (addrField w))
  | 0x4#4 => decodeE w true true (.wrm (flagField w) (busField w) (addrField w) (argField w))
  | 0x5#4 => decodeE w false true (.rdm (busField w) (addrField w) (argField w))
  | 0x8#4 => decodeD w (immAboveCh w == 0) (.swsel (chField w))
  | 0x9#4 => decodeD w (immField w == 0) .swdes
  | 0xA#4 => decodeD w true (.x24set (immField w))
  | 0xB#4 => decodeD w (immAboveByte w == 0) (.x8drv (argField w))
  | 0xC#4 => decodeD w (immField w == 0) .x8sns
  | _ => .illegal .reservedOpcode

/-- The spec's `Decode(w, LEN)` on instance `c` (30_encoding.md R105). -/
def decodeAt (c : Config) (len : Half) (w : Word) : Decoded :=
  match decode w with
  | .illegal why => .illegal why
  | .ok i =>
    if !i.busInRange c then .illegal .busOutOfRange
    else if !i.lenInRange c len then .illegal .lenAboveMax
    else .ok i

/-- Format E, pattern `oooo f000 bbbbbbbb aaaaaaaa dddddddd` (R101). -/
def encodeE (op : BitVec 4) (f : Bool) (bus addr arg : Byte) : Word :=
  op ++ BitVec.ofBool f ++ 0#3 ++ bus ++ addr ++ arg

/-- Format D, pattern `oooo 0000 vvvvvvvv vvvvvvvv vvvvvvvv` (R102). -/
def encodeD (op : BitVec 4) (imm : BitVec 24) : Word :=
  op ++ 0#4 ++ imm

/-- The command word of a command (R101, R102, R104). -/
def encode (i : Instr) : Word :=
  match i with
  | .poll bus addr => encodeE 0x1 false bus addr 0
  | .wrb f bus addr data => encodeE 0x2 f bus addr data
  | .rdb bus addr => encodeE 0x3 false bus addr 0
  | .wrm f bus addr sub => encodeE 0x4 f bus addr sub
  | .rdm bus addr sub => encodeE 0x5 false bus addr sub
  | .swsel ch => encodeD 0x8 (ch.setWidth 24)
  | .swdes => encodeD 0x9 0
  | .x24set value => encodeD 0xA value
  | .x8drv data => encodeD 0xB (data.setWidth 24)
  | .x8sns => encodeD 0xC 0

/-- The word whose `nbits` low bits are those of `w`, as spec/opcode_table.json numbers them; every bit above is 0. -/
def tableWord (nbits w : Nat) : Word := BitVec.ofNat 32 (w % 2 ^ nbits)

/-- The command the decoder reads from the bits `w` of a row of spec/opcode_table.json. -/
def decodeTableWord (nbits w : Nat) : Option Instr :=
  match decode (tableWord nbits w) with
  | .ok i => if nbits ≤ 32 then some i else none
  | .illegal _ => none

end Sys2Proof
end

