-- ==== Sys2Proof/Machine/Operands.lean ====
section
/-! DEFINITION. The values the sequencer and the adapters build from operands (30_encoding.md R106), the parts of a response they use
(40_primitive_port.md R150), the reads of BUF and XB, and the message layout of the primitive port (R149). -/

namespace Sys2Proof.Machine

/-- The answer of a computation that may stop. -/
abbrev Result (α : Type) := Host.Outcome α Fault Refusal

/-- The read-direction address byte `addr | 0x01` (R106; 00_scope.md R14). -/
def readAddress (addr : Byte) : Byte := addr ||| 1

/-- The address byte of state S_ADDR (41_sequencer_fsm.md R165). -/
def firstAddress (td : TD) : Byte :=
  if td.kind = .rdb then readAddress td.addr else td.addr

/-- The one-hot switch mask `(0x01 << ch)[7:0]` (R106; 43_adapter_switch.md R231). -/
def oneHot (ch : BitVec 3) : Byte := 1#8 <<< ch.toNat

/-- Lane `k` of the 24-bit value: bits `8k+7 : 8k` (R106; 44_adapter_exp24.md R243). -/
def lane (value : BitVec 24) (k : Fin 3) : Byte := value.extractLsb' (8 * k.val) 8

/-- The three value bytes in wire order (44_adapter_exp24.md R243). -/
def wireBytes (l : Lanes) (value : BitVec 24) : Bytes3 :=
  ⟨lane value l.first, lane value l.second, lane value l.third⟩

/-- `i + 1 < n` over the naturals (00_scope.md R20): `sendAck` of read `i` of `n` (R106). -/
def notLast (i n : Half) : Bool := decide (i.toNat + 1 < n.toNat)

/-- `i + 1 = n` over the naturals (00_scope.md R20): the "last" test of byte `i` of `n` (R106). -/
def isLast (i n : Half) : Bool := decide (i.toNat + 1 = n.toNat)

/-- The acknowledge in the response to a Write: RVAL[0], 1 = ACK (40_primitive_port.md R150; 00_scope.md R18). -/
def ackOf (rval : Half) : Bool := rval.getLsbD 0

/-- The byte in the response to a Read: RVAL[7:0] (40_primitive_port.md R150). -/
def dataOf (rval : Half) : Byte := rval.extractLsb' 0 8

/-- `BufRead(i)` (00_scope.md R21; 20_memory.md R70, R74). -/
def bufRead (s : State) (i : Nat) : Result Byte :=
  if i < s.cfg.maxlen then
    match Memory.read s.buf i with
    | some v => .next v
    | none => .fault (.bufUnwritten i)
  else .fault (.bufOutOfRange i)

/-- `BufWrite(i, v)` (00_scope.md R21; 20_memory.md R70). -/
def bufWrite (s : State) (i : Nat) (v : Byte) : Result State :=
  if i < s.cfg.maxlen then .next { s with buf := Memory.write s.buf i v }
  else .fault (.bufOutOfRange i)

/-- `XB[i]`, `i` in 0 .. 2 (10_state.md R38). -/
def xbRead (xb : Bytes3) (i : Nat) : Result Byte :=
  match i with
  | 0 => .next xb.b0
  | 1 => .next xb.b1
  | 2 => .next xb.b2
  | _ => .fault (.xbOutOfRange i)

/-- The byte state S_WDATA sends: `BUF[IDX]` or `XB[IDX]` (41_sequencer_fsm.md R170). -/
def sourceByte (s : State) : Result Byte :=
  match s.td.src with
  | .buf => bufRead s s.idx.toNat
  | .xb => xbRead s.xb s.idx.toNat

/-- The mask state S_SWSEL sends, from CMD (41_sequencer_fsm.md R180). Any other CMD in that state has no rule (log 9). -/
def commandMask (cmd : Word) : Result Byte :=
  if opField cmd = 0x8 then .next (oneHot (chField cmd))
  else if opField cmd = 0x9 then .next 0
  else .fault (.noTransition .swsel)

/-- PBUS of a request message (40_primitive_port.md R149). -/
def Request.pbus (q : Request) : Byte := q.bus

/-- PKIND of a request message (40_primitive_port.md R149). -/
def Request.pkind (q : Request) : BitVec 3 :=
  match q.prim with
  | .start => 0
  | .restart => 1
  | .stop => 2
  | .write _ => 3
  | .read _ => 4
  | .swsel _ _ => 5

/-- PARG of a request message (40_primitive_port.md R149). -/
def Request.parg (q : Request) : Half :=
  match q.prim with
  | .start => 0
  | .restart => 0
  | .stop => 0
  | .write byte => 0#8 ++ byte
  | .read sendAck => 0#15 ++ BitVec.ofBool sendAck
  | .swsel addr mask => addr ++ mask

/-- RKIND of a response message (40_primitive_port.md R150). -/
def Response.rkind (r : Response) : BitVec 1 :=
  match r with
  | .ok _ => 0
  | .fault _ => 1

end Sys2Proof.Machine
end

