-- ==== Sys2Proof/Machine/Ops.lean ====
section
/-! DEFINITION. The named operations the commands and the sequencer share: moving ST, the index, one exchange at the primitive port,
issue, raising the two kinds of error (this block's exception entry, 60_exceptions.md R262, R266, R272), and the end of a
command (its return, R272). -/

namespace Sys2Proof.Machine

/-- `ST <- st` for a state other than S_WDATA and S_READ, where IDX is "unspecified (`any value`)" (10_state.md R32): IDX
takes a free value (log 5). -/
def goto (st : SeqState) (s : State) : State :=
  { s with st := st, idx := Config.freeIdx s.free, free := s.free + 1 }

/-- `IDX <- 0`, and ST to S_WDATA or S_READ (10_state.md R32; 41_sequencer_fsm.md R167, R169, R172). -/
def enterLoop (st : SeqState) (s : State) : State :=
  { s with st := st, idx := 0 }

/-- `IDX <- IDX + 1`, staying in the state (41_sequencer_fsm.md R170, R178). -/
def nextIndex (s : State) : State :=
  { s with idx := s.idx + 1 }

/-- One request and its response, the first of the answers to come (40_primitive_port.md R140; 41_sequencer_fsm.md R160). -/
def exchange (q : Request) (r : Response) (s : State) : State :=
  { s with answers := s.answers.tail, trace := s.trace ++ [⟨q, r⟩] }

/-- `raise ProtocolError(p)` (60_exceptions.md R262): exception entry of the first kind. -/
def raiseProtocolError (p : Phase) (s : State) : State :=
  goto .stop { s with status := { s.status with err := true, phase := p } }

/-- What every fault response records: `STATUS.PF <- 1; PFINFO <- info` (60_exceptions.md R266). -/
def recordFault (info : PFInfo) (s : State) : State :=
  { s with status := { s.status with pf := true }, pfinfo := info }

/-- `raise PrimFault(info)` (60_exceptions.md R266; 41_sequencer_fsm.md R173): exception entry of the second kind. -/
def raisePrimFault (info : PFInfo) (s : State) : State :=
  goto .stop (recordFault info s)

/-- The end of a command: `STATUS.DONE <- 1; ST <- IDLE` (41_sequencer_fsm.md R176, R180; 60_exceptions.md R272). -/
def endCommand (s : State) : State :=
  goto .idle { s with status := { s.status with done := true } }

/-- `STATUS.OPEN <- b` (10_state.md R44; 41_sequencer_fsm.md R164, R175). -/
def setOpen (b : Bool) (s : State) : State :=
  { s with status := { s.status with busOpen := b } }

/-- Issuing an illegal word does this and nothing else (30_encoding.md R108; 60_exceptions.md R267). -/
def illegalCommand (s : State) : State :=
  { s with status := s.status.afterIllegal }

/-- What the issue of every legal command does first: clear STATUS, `CMD <- w` (41_sequencer_fsm.md R162). The word is `encode i`, which
is the word issued because decoding loses nothing (DEDUCED, log 12). -/
def latchCommand (i : Instr) (s : State) : State :=
  { s with cmd := encode i, status := s.status.cleared }

/-- `TD <- td; ST <- S_START` (41_sequencer_fsm.md R163). -/
def openTransaction (td : TD) (s : State) : State :=
  goto .start { s with td := td }

/-- Issue of command `i` (41_sequencer_fsm.md R162): illegal if a condition of 30_encoding.md R104 fails, else latched and set up. -/
def issue (i : Instr) (legal : Bool) (setUp : State → State) (s : State) : Result State :=
  if legal then .next (setUp (latchCommand i s)) else .next (illegalCommand s)

/-- `BUS < NBUS` (30_encoding.md R104, R105). -/
def busLegal (s : State) (bus : Byte) : Bool := decide (bus.toNat < s.cfg.nbus)

/-- `LEN <= MAXLEN` (30_encoding.md R104, R105). -/
def lenLegal (s : State) : Bool := decide (s.len.toNat ≤ s.cfg.maxlen)

/-- A primitive step happens when the environment answers; until then the block stays in the state that makes the request
(40_primitive_port.md R153; 41_sequencer_fsm.md R160; log 1). -/
def whenAnswered (s : State) (k : Response → Result State) : Result State :=
  match s.answers with
  | [] => .next s
  | r :: _ => k r

end Sys2Proof.Machine
end

