-- ==== Sys2Proof/Machine/Engine.lean ====
section
/-! DEFINITION. The meanings of the five engine commands (42_engine_ops.md R200 to R212). Each is the issue step of 41_sequencer_fsm.md
R162 with its row of R163; the transaction then runs as the primitive steps of Machine/Sequencer.lean (R160). -/

namespace Sys2Proof.Machine

/-- POLL (42_engine_ops.md R201; 41_sequencer_fsm.md R162, R163): `STATUS.ACK <- 0`, transaction of kind POLL. -/
def execPoll (bus addr : Byte) (s : State) : Result State :=
  issue (.poll bus addr) (busLegal s bus)
    (fun t => openTransaction ⟨.poll, bus, addr, 0, false, 0, .buf⟩ { t with status := { t.status with ack := false } }) s

/-- WRB (42_engine_ops.md R203; 41_sequencer_fsm.md R163). -/
def execWrb (ackRequired : Bool) (bus addr data : Byte) (s : State) : Result State :=
  issue (.wrb ackRequired bus addr data) (busLegal s bus)
    (fun t => openTransaction ⟨.wrb, bus, addr, data, ackRequired, 0, .buf⟩ t) s

/-- RDB (42_engine_ops.md R204; 41_sequencer_fsm.md R162, R163): `RDATA <- 0`. -/
def execRdb (bus addr : Byte) (s : State) : Result State :=
  issue (.rdb bus addr) (busLegal s bus)
    (fun t => openTransaction ⟨.rdb, bus, addr, 0, false, 1, .buf⟩ { t with rdata := 0 }) s

/-- WRM (42_engine_ops.md R206; 41_sequencer_fsm.md R163): `TD.N <- LEN`, bytes from BUF. -/
def execWrm (ackLast : Bool) (bus addr sub : Byte) (s : State) : Result State :=
  issue (.wrm ackLast bus addr sub) (busLegal s bus && lenLegal s)
    (fun t => openTransaction ⟨.wrm, bus, addr, sub, ackLast, t.len, .buf⟩ t) s

/-- RDM (42_engine_ops.md R208; 41_sequencer_fsm.md R163): `TD.N <- LEN`. -/
def execRdm (bus addr sub : Byte) (s : State) : Result State :=
  issue (.rdm bus addr sub) (busLegal s bus && lenLegal s)
    (fun t => openTransaction ⟨.rdm, bus, addr, sub, false, t.len, .buf⟩ t) s

end Sys2Proof.Machine
end

