-- ==== Sys2Proof/Machine/Exp24.lean ====
section
/-! DEFINITION. The meaning of the 24-bit output expander command (44_adapter_exp24.md R240 to R247) and its chaining step between the
two transactions (41_sequencer_fsm.md R176). -/

namespace Sys2Proof.Machine

/-- X24SET (44_adapter_exp24.md R241; 41_sequencer_fsm.md R163): the direction write, three bytes from XB, `ackLast = 1`. The value stays
in CMD.IMM24 (R242). -/
def execX24set (value : BitVec 24) (s : State) : Result State :=
  issue (.x24set value) true
    (fun t => openTransaction ⟨.wrm, t.cfg.x24Bus, t.cfg.x24Addr, t.cfg.x24DirSub, true, 3, .xb⟩
      { t with xb := t.cfg.x24DirBytes }) s

/-- The condition of 41_sequencer_fsm.md R176 for a second transaction. -/
def chains (s : State) : Bool :=
  opField s.cmd == 0xA && !s.status.useq && !s.status.err && !s.status.pf

/-- The second transaction of X24SET (41_sequencer_fsm.md R176; 44_adapter_exp24.md R242): USEQ, XB, TD.ARG, then S_START; the other TD
fields keep their values. -/
def secondTransaction (s : State) : State :=
  goto .start
    { s with
      status := { s.status with useq := true }
      xb := wireBytes s.cfg.x24Lanes (immField s.cmd)
      td := { s.td with arg := s.cfg.x24OutSub } }

end Sys2Proof.Machine
end

