-- ==== Sys2Proof/Machine/Exp8.lean ====
section
/-! DEFINITION. The meanings of the quasi-bidirectional 8-bit expander commands (45_adapter_exp8.md R250 to R255): a writeByte and a readByte
with the adapter's own bus and address (41_sequencer_fsm.md R163). -/

namespace Sys2Proof.Machine

/-- X8DRV (45_adapter_exp8.md R251; 41_sequencer_fsm.md R163), `ackRequired = 1`. -/
def execX8drv (data : Byte) (s : State) : Result State :=
  issue (.x8drv data) true
    (fun t => openTransaction ⟨.wrb, t.cfg.x8Bus, t.cfg.x8Addr, data, true, 0, .buf⟩ t) s

/-- X8SNS (45_adapter_exp8.md R252; 41_sequencer_fsm.md R162, R163): `RDATA <- 0`. -/
def execX8sns (s : State) : Result State :=
  issue .x8sns true
    (fun t => openTransaction ⟨.rdb, t.cfg.x8Bus, t.cfg.x8Addr, 0, false, 1, .buf⟩ { t with rdata := 0 }) s

end Sys2Proof.Machine
end

