-- ==== Sys2Proof/Machine/Switch.lean ====
section
/-! DEFINITION. The meanings of the bus switch commands (43_adapter_switch.md R230 to R236): each goes to S_SWSEL, where the one `SwSel`
primitive is requested (41_sequencer_fsm.md R163, R180). TD keeps its value. -/

namespace Sys2Proof.Machine

/-- SWSEL (43_adapter_switch.md R232; 41_sequencer_fsm.md R163). -/
def execSwsel (ch : BitVec 3) (s : State) : Result State :=
  issue (.swsel ch) true (fun t => goto .swsel t) s

/-- SWDES (43_adapter_switch.md R233; 41_sequencer_fsm.md R163). -/
def execSwdes (s : State) : Result State :=
  issue .swdes true (fun t => goto .swsel t) s

end Sys2Proof.Machine
end

