-- ==== Sys2Proof/Machine/Dispatch.lean ====
section
/-! DEFINITION. One arm per constructor of Instr, each one direct call of its meaning. -/

namespace Sys2Proof.Machine

def exec (i : Instr) (s : State) : Host.Outcome State Fault Refusal :=
  match i with
  | .poll bus addr => Sys2Proof.Machine.execPoll bus addr s
  | .wrb ackRequired bus addr data => Sys2Proof.Machine.execWrb ackRequired bus addr data s
  | .rdb bus addr => Sys2Proof.Machine.execRdb bus addr s
  | .wrm ackLast bus addr sub => Sys2Proof.Machine.execWrm ackLast bus addr sub s
  | .rdm bus addr sub => Sys2Proof.Machine.execRdm bus addr sub s
  | .swsel ch => Sys2Proof.Machine.execSwsel ch s
  | .swdes => Sys2Proof.Machine.execSwdes s
  | .x24set value => Sys2Proof.Machine.execX24set value s
  | .x8drv data => Sys2Proof.Machine.execX8drv data s
  | .x8sns => Sys2Proof.Machine.execX8sns s

end Sys2Proof.Machine
end

