-- ==== Sys2Proof/Machine/HostPort.lean ====
section
/-! DEFINITION. The host port (10_state.md R52 to R57; 70_reset_and_hazards.md R300 to R303, R311, R312): the operations that are not
commands, the reset input, the next operation to be taken, and the host's reads. -/

namespace Sys2Proof.Machine

/-- `SetLen(v)` (10_state.md R53); any 16-bit value (93_implementation_defined.md U22). -/
def hostSetLen (v : Half) (s : State) : Result State :=
  .next { s with len := v }

/-- `HostBufWrite(i, v)`, `i < MAXLEN` (10_state.md R53; 20_memory.md R72). -/
def hostBufWrite (i : Half) (v : Byte) (s : State) : Result State :=
  bufWrite s i.toNat v

/-- The reset input (10_state.md R57; 70_reset_and_hazards.md R301): the registers of `State.resetOf`, no primitive requested. The
instance, what the host and the environment still do, and the trace of the past are not the block's registers and stay. It is
taken only while ST = IDLE (93_implementation_defined.md U8; log 13). -/
def hostReset (s : State) : Result State :=
  .next { State.resetOf s.cfg with host := s.host, answers := s.answers, trace := s.trace, free := s.free }

/-- What the host port does next: nothing (`none`), or the first operation to come, taken from the list. Only asked while
ST = IDLE, so that the port is closed while BUSY (10_state.md R52; 70_reset_and_hazards.md R311). -/
def fetch (s : State) : Option (HostOp × State) :=
  match s.host with
  | [] => none
  | op :: rest => some (op, { s with host := rest })

/-- The host reads STATUS, at any time (10_state.md R54). -/
def hostReadStatus (s : State) : Half := statusWord s

/-- The host may read the results (10_state.md R54): `DONE = 1`, and the block is not BUSY (log 15). -/
def resultsReadable (s : State) : Bool := !busy s && s.status.done

/-- The host reads RDATA (10_state.md R54; 70_reset_and_hazards.md R312). -/
def hostReadRdata (s : State) : Result Byte :=
  if resultsReadable s then .next s.rdata else .refused .hostReadNotAllowed

/-- The host reads PFINFO (10_state.md R54). -/
def hostReadPfinfo (s : State) : Result PFInfo :=
  if resultsReadable s then .next s.pfinfo else .refused .hostReadNotAllowed

/-- The host reads `BUF[i]` (10_state.md R54; 20_memory.md R72, R74). -/
def hostReadBuf (i : Half) (s : State) : Result Byte :=
  if resultsReadable s then bufRead s i.toNat else .refused .hostReadNotAllowed

end Sys2Proof.Machine
end

