-- ==== Sys2Proof/Machine/Sequencer.lean ====
section
/-! DEFINITION. The primitive steps (41_sequencer_fsm.md R160, R164 to R183): for each state of ST the one request it makes, and
the move on the response. -/

namespace Sys2Proof.Machine

/-- The request the state makes (10_state.md R31, last column; 41_sequencer_fsm.md R164 to R180). A read of BUF happens here, in the step
that requests the Write of that byte (20_memory.md R88). IDLE makes none. -/
def request (s : State) : Result Request :=
  match s.st with
  | .idle => .fault (.noTransition .idle)
  | .start => .next ⟨s.td.bus, .start⟩
  | .addr => .next ⟨s.td.bus, .write (firstAddress s.td)⟩
  | .data => .next ⟨s.td.bus, .write s.td.arg⟩
  | .sub => .next ⟨s.td.bus, .write s.td.arg⟩
  | .wdata =>
    match sourceByte s with
    | .next d => .next ⟨s.td.bus, .write d⟩
    | .fault f => .fault f
    | .refused r => .refused r
  | .restart => .next ⟨s.td.bus, .restart⟩
  | .addrR => .next ⟨s.td.bus, .write (readAddress s.td.addr)⟩
  | .read => .next ⟨s.td.bus, .read (notLast s.idx s.td.n)⟩
  | .stop => .next ⟨s.td.bus, .stop⟩
  | .swsel =>
    match commandMask s.cmd with
    | .next m => .next ⟨s.cfg.swBus, .swsel s.cfg.swAddr m⟩
    | .fault f => .fault f
    | .refused r => .refused r

/-- 41_sequencer_fsm.md R173: a fault response raises PrimFault; on any other the state's own rule `k` decides. -/
def onOk (r : Response) (s : State) (k : Half → Result State) : Result State :=
  match r with
  | .fault info => .next (raisePrimFault info s)
  | .ok rval => k rval

/-- STOP_AFTER_START_FAULT = 0 (93_implementation_defined.md U11; log 11): the faulted Start ends the command with no Stop. -/
def abandonStart (info : PFInfo) (s : State) : State :=
  endCommand (setOpen false (recordFault info s))

/-- S_START (41_sequencer_fsm.md R164, R174). -/
def afterStart (r : Response) (s : State) : Result State :=
  let t := setOpen true s
  match r with
  | .ok _ => .next (goto .addr t)
  | .fault info => if s.cfg.stopAfterStartFault then .next (raisePrimFault info t) else .next (abandonStart info t)

/-- S_ADDR (41_sequencer_fsm.md R166, R167). -/
def afterAddr (r : Response) (s : State) : Result State :=
  onOk r s fun rval =>
    match s.td.kind with
    | .poll => .next (goto .stop { s with status := { s.status with ack := ackOf rval } })
    | .wrb => if ackOf rval then .next (goto .data s) else .next (raiseProtocolError .addr s)
    | .rdb => if ackOf rval then .next (enterLoop .read s) else .next (raiseProtocolError .readAddr s)
    | .wrm => if ackOf rval then .next (goto .sub s) else .next (raiseProtocolError .addr s)
    | .rdm => if ackOf rval then .next (goto .sub s) else .next (raiseProtocolError .addr s)

/-- S_DATA (41_sequencer_fsm.md R168). -/
def afterData (r : Response) (s : State) : Result State :=
  onOk r s fun rval =>
    if !ackOf rval && s.td.flag then .next (raiseProtocolError .data s) else .next (goto .stop s)

/-- S_SUB (41_sequencer_fsm.md R169). The rule covers WRM and RDM only (log 9). -/
def afterSub (r : Response) (s : State) : Result State :=
  onOk r s fun rval =>
    if !ackOf rval then .next (raiseProtocolError .subaddr s)
    else
      match s.td.kind with
      | .rdm => .next (goto .restart s)
      | .wrm => if s.td.n = 0 then .next (goto .stop s) else .next (enterLoop .wdata s)
      | .poll => .fault (.noTransition .sub)
      | .wrb => .fault (.noTransition .sub)
      | .rdb => .fault (.noTransition .sub)

/-- S_WDATA (41_sequencer_fsm.md R170). -/
def afterWdata (r : Response) (s : State) : Result State :=
  onOk r s fun rval =>
    if !ackOf rval && (!isLast s.idx s.td.n || s.td.flag) then .next (raiseProtocolError .data s)
    else if isLast s.idx s.td.n then .next (goto .stop s)
    else .next (nextIndex s)

/-- S_RESTART (41_sequencer_fsm.md R171). -/
def afterRestart (r : Response) (s : State) : Result State :=
  onOk r s fun _ => .next (goto .addrR s)

/-- S_ADDRR (41_sequencer_fsm.md R172). -/
def afterAddrR (r : Response) (s : State) : Result State :=
  onOk r s fun rval =>
    if !ackOf rval then .next (raiseProtocolError .readAddr s)
    else if s.td.n = 0 then .next (goto .stop s)
    else .next (enterLoop .read s)

/-- Where S_READ puts the byte: RDATA for RDB, `BUF[IDX]` otherwise (41_sequencer_fsm.md R178; 20_memory.md R88). -/
def storeRead (v : Byte) (s : State) : Result State :=
  if s.td.kind = .rdb then .next { s with rdata := v } else bufWrite s s.idx.toNat v

/-- S_READ (41_sequencer_fsm.md R178, R179). -/
def afterRead (r : Response) (s : State) : Result State :=
  onOk r s fun rval =>
    match storeRead (dataOf rval) s with
    | .next t => if isLast s.idx s.td.n then .next (goto .stop t) else .next (nextIndex t)
    | .fault f => .fault f
    | .refused x => .refused x

/-- What a response that ends a command or a transaction records (41_sequencer_fsm.md R176, R180). -/
def recordIfFault (r : Response) (s : State) : State :=
  match r with
  | .ok _ => s
  | .fault info => recordFault info s

/-- S_STOP (41_sequencer_fsm.md R175, R176, R177). -/
def afterStop (r : Response) (s : State) : Result State :=
  let t := recordIfFault r (setOpen false s)
  if chains t then .next (secondTransaction t) else .next (endCommand t)

/-- S_SWSEL (41_sequencer_fsm.md R180). -/
def afterSwsel (r : Response) (s : State) : Result State :=
  .next (endCommand (recordIfFault r s))

/-- The move on the response, by state (41_sequencer_fsm.md R181). -/
def respond (r : Response) (s : State) : Result State :=
  match s.st with
  | .idle => .fault (.noTransition .idle)
  | .start => afterStart r s
  | .addr => afterAddr r s
  | .data => afterData r s
  | .sub => afterSub r s
  | .wdata => afterWdata r s
  | .restart => afterRestart r s
  | .addrR => afterAddrR r s
  | .read => afterRead r s
  | .stop => afterStop r s
  | .swsel => afterSwsel r s

/-- One primitive step: the request the state makes, its response, the move (41_sequencer_fsm.md R160). -/
def primitiveStep (s : State) : Result State :=
  whenAnswered s fun r =>
    match request s with
    | .next q => respond r (exchange q r s)
    | .fault f => .fault f
    | .refused x => .refused x

end Sys2Proof.Machine
end

