-- ==== Sys2Proof/Machine/Step.lean ====
section
/-! DEFINITION. One step of the machine (41_sequencer_fsm.md R160): a primitive step while BUSY, otherwise the host's next operation. -/

namespace Sys2Proof.Machine

/-- The issue step of word `w` (41_sequencer_fsm.md R162): the decoded command, or the illegal word's effect (30_encoding.md R108). -/
def issueWord (w : Word) (s : State) : Host.Outcome State Fault Refusal :=
  match decode w with
  | .ok i => exec i s
  | .illegal _ => .next (illegalCommand s)

/-- One operation of the host port, the block being idle (10_state.md R52, R53, R57). -/
def hostStep (op : HostOp) (s : State) : Host.Outcome State Fault Refusal :=
  match op with
  | .issue w => issueWord w s
  | .setLen v => hostSetLen v s
  | .bufWrite i v => hostBufWrite i v s
  | .reset => hostReset s

/-- One step: a primitive step while BUSY; else the host's next operation; else nothing, until the host issues a command
(41_sequencer_fsm.md R160; 70_reset_and_hazards.md R302). -/
def step (s : State) : Host.Outcome State Fault Refusal :=
  if busy s then primitiveStep s
  else
    match fetch s with
    | some (op, t) => hostStep op t
    | none => .next s

/-- `s` with the word of a row of spec/opcode_table.json as the next thing the host issues, so that the next step decodes and runs
it (log 2). The port is open only in IDLE, so ST is IDLE. -/
def State.withFetchWord (s : State) (nbits w : Nat) : State :=
  { s with st := .idle, host := .issue (tableWord nbits w) :: s.host }

end Sys2Proof.Machine
end

