-- ==== Sys2Proof/Safety.lean ====
section
/-! DEFINITION. The terms the statements use: runs, the well-formedness of a state that every legal run keeps, the start and stop
bracket of a trace (00_scope.md R17; 41_sequencer_fsm.md R186), and the bound on the primitives of a command (R189). -/

namespace Sys2Proof.Machine

/-- `k` steps lead from `s` to `t`: `Host.Core.run Sys2Proof.core k s = .next t`, written out. -/
def Runs (k : Nat) (s t : State) : Prop :=
  match k with
  | 0 => s = t
  | k + 1 => ∃ m, step s = .next m ∧ Runs k m t

/-- The states of ST between the request of Start and the request of Stop (10_state.md R44). -/
def SeqState.inTransaction (st : SeqState) : Bool :=
  match st with
  | .idle => false
  | .start => false
  | .addr => true
  | .data => true
  | .sub => true
  | .wdata => true
  | .restart => true
  | .addrR => true
  | .read => true
  | .stop => true
  | .swsel => false

/-- The states of ST in which a transaction is about to open or open: every state but IDLE and S_SWSEL. -/
def SeqState.transacting (st : SeqState) : Bool := st == .start || st.inTransaction

/-- The pairs of ST and TD.KIND that 41_sequencer_fsm.md R181 has rows for. -/
def SeqState.allows (st : SeqState) (k : Kind) : Bool :=
  match st with
  | .idle => true
  | .start => true
  | .addr => true
  | .data => k == .wrb
  | .sub => k == .wrm || k == .rdm
  | .wdata => k == .wrm
  | .restart => k == .rdm
  | .addrR => k == .rdm
  | .read => k == .rdb || k == .rdm
  | .stop => true
  | .swsel => true

/-- The transaction descriptor of 41_sequencer_fsm.md R163 for a command, `useq` being the transaction of X24SET that is running
(R176); none for the switch commands. -/
def descriptor (c : Config) (len : Half) (useq : Bool) (i : Instr) : Option TD :=
  match i with
  | .poll bus addr => some ⟨.poll, bus, addr, 0, false, 0, .buf⟩
  | .wrb f bus addr data => some ⟨.wrb, bus, addr, data, f, 0, .buf⟩
  | .rdb bus addr => some ⟨.rdb, bus, addr, 0, false, 1, .buf⟩
  | .wrm f bus addr sub => some ⟨.wrm, bus, addr, sub, f, len, .buf⟩
  | .rdm bus addr sub => some ⟨.rdm, bus, addr, sub, false, len, .buf⟩
  | .swsel _ => none
  | .swdes => none
  | .x24set _ => some ⟨.wrm, c.x24Bus, c.x24Addr, if useq then c.x24OutSub else c.x24DirSub, true, 3, .xb⟩
  | .x8drv data => some ⟨.wrb, c.x8Bus, c.x8Addr, data, true, 0, .buf⟩
  | .x8sns => some ⟨.rdb, c.x8Bus, c.x8Addr, 0, false, 1, .buf⟩

/-- What XB holds while a transaction of X24SET runs (44_adapter_exp24.md R242). -/
def staging (c : Config) (useq : Bool) (cmd : Word) : Bytes3 :=
  if useq then wireBytes c.x24Lanes (immField cmd) else c.x24DirBytes

/-- What every legal run keeps true of the state. -/
structure Invariant (s : State) : Prop where
  /-- BUF is in canonical form, inside `0 .. MAXLEN-1` (20_memory.md R70). -/
  bufWf : Memory.wf s.buf = true
  bufBelow : Memory.below s.cfg.maxlen s.buf = true
  /-- OPEN = 1 exactly in the states between Start and Stop (10_state.md R44; 41_sequencer_fsm.md R186). -/
  openIff : s.status.busOpen = s.st.inTransaction
  /-- A command that has ended leaves the block idle (10_state.md R55). -/
  doneIdle : s.status.done = true → s.st = .idle
  /-- ILL stands alone, with DONE (30_encoding.md R108). -/
  illAlone : s.status.ill = true → s.status.done = true ∧ s.status.err = false ∧ s.status.pf = false
  /-- PHASE is set with ERR and only with it (10_state.md R42). -/
  errPhase : s.status.err = true ↔ s.status.phase ≠ .none
  /-- After an error or a fault the sequencer is in S_STOP or the command has ended (60_exceptions.md R272). -/
  errorStops : s.status.err = true ∨ s.status.pf = true → s.st = .idle ∨ s.st = .stop
  /-- USEQ is set by X24SET only (10_state.md R33). -/
  useqX24 : s.status.useq = true → opField s.cmd = 0xA
  /-- The state of the sequencer fits the transaction (41_sequencer_fsm.md R181). -/
  kindFits : s.st.transacting = true → s.st.allows s.td.kind = true
  /-- `IDX < TD.N` in S_WDATA and S_READ (41_sequencer_fsm.md R170, R178). -/
  indexLive : s.st = .wdata ∨ s.st = .read → s.idx.toNat < s.td.n.toNat
  /-- While a transaction runs, CMD is a legal command and TD is its descriptor (41_sequencer_fsm.md R163; 20_memory.md R88). -/
  tdIsCommand : s.st.transacting = true →
    ∃ i, decodeAt s.cfg s.len s.cmd = .ok i ∧ descriptor s.cfg s.len s.status.useq i = some s.td
  /-- While a transaction of X24SET runs, XB holds its bytes (44_adapter_exp24.md R242). -/
  xbStaged : s.st.transacting = true → s.td.src = .xb → s.xb = staging s.cfg s.status.useq s.cmd
  /-- In S_SWSEL the command is SWSEL or SWDES (41_sequencer_fsm.md R180). -/
  swselCommand : s.st = .swsel → (∃ ch, decode s.cmd = .ok (.swsel ch)) ∨ decode s.cmd = .ok .swdes

/-- One primitive against "a start has been requested and its stop not yet": `none` once the bracket is broken. -/
def bracketStep (b : Option Bool) (p : Prim) : Option Bool :=
  match b, p with
  | some false, .start => some true
  | some true, .stop => some false
  | some true, .restart => some true
  | some true, .write _ => some true
  | some true, .read _ => some true
  | some false, .swsel _ _ => some false
  | _, _ => none

/-- The bracket of a trace: `some true` inside a transaction, `some false` outside, `none` if some start was not followed by exactly
one stop before the next, or a byte was moved outside a transaction (00_scope.md R17; 40_primitive_port.md R148). -/
def bracket (trace : List Exchange) : Option Bool :=
  trace.foldl (fun b e => bracketStep b e.request.prim) (some false)

/-- INV-BRACKET up to this point (00_scope.md R17), OPEN saying where the trace stands (10_state.md R44). -/
def Bracketed (s : State) : Prop := bracket s.trace = some s.status.busOpen

/-- The most primitives one transaction requests (41_sequencer_fsm.md R189). -/
def transactionBound (td : TD) : Nat :=
  match td.kind with
  | .poll => 3
  | .wrb => 4
  | .rdb => 4
  | .wrm => 4 + td.n.toNat
  | .rdm => 6 + td.n.toNat

/-- The most primitives a command requests when LEN is `len`: one transaction, two for X24SET, the one SwSel for the switch commands
(41_sequencer_fsm.md R161, R189). -/
def commandBound (c : Config) (len : Half) (i : Instr) : Nat :=
  match descriptor c len false i with
  | some td => if td.src = .xb then 2 * transactionBound td else transactionBound td
  | none => 1

/-- Every byte a WRM will send has been written (70_reset_and_hazards.md R305). -/
def PayloadReady (s : State) (i : Instr) : Prop :=
  match i with
  | .wrm _ _ _ _ => ∀ k, k < s.len.toNat → Memory.read s.buf k ≠ none
  | _ => True

/-- Answers of the environment that are no faults, with these values. -/
def oks (vals : List Half) : List Response := vals.map .ok

/-- The exchanges of writing `bytes` on `bus`, answered `vals`. -/
def writes (bus : Byte) (bytes : List Byte) (vals : List Half) : List Exchange :=
  List.zipWith (fun b v => ⟨⟨bus, .write b⟩, .ok v⟩) bytes vals

/-- The exchanges of reading `vals.length` bytes on `bus`, answered `vals`: sendAck on all but the last (41_sequencer_fsm.md R178). -/
def reads (bus : Byte) (vals : List Half) : List Exchange :=
  match vals with
  | [] => []
  | v :: rest => ⟨⟨bus, .read (!rest.isEmpty)⟩, .ok v⟩ :: reads bus rest

/-- The exchanges of making these requests on `bus`, answered so. -/
def exchanges (bus : Byte) (prims : List Prim) (responses : List Response) : List Exchange :=
  List.zipWith (fun p r => ⟨⟨bus, p⟩, r⟩) prims responses

/-- Whether a response is a fault (40_primitive_port.md R150). -/
def Response.faulted (r : Response) : Bool :=
  match r with
  | .ok _ => false
  | .fault _ => true

/-- PFINFO after a response, `old` before it (60_exceptions.md R266). -/
def Response.infoAfter (r : Response) (old : PFInfo) : PFInfo :=
  match r with
  | .ok _ => old
  | .fault info => info

/-- The three data bytes of the first, or the second, transaction of X24SET (44_adapter_exp24.md R241, R243). -/
def x24Bytes (c : Config) (value : BitVec 24) (second : Bool) : Bytes3 :=
  if second then wireBytes c.x24Lanes value else c.x24DirBytes

/-- Its sub-address (44_adapter_exp24.md R241). -/
def x24Sub (c : Config) (second : Bool) : Byte := if second then c.x24OutSub else c.x24DirSub

/-- Its seven requests when nothing fails (44_adapter_exp24.md R241; 41_sequencer_fsm.md R187). -/
def x24Prims (c : Config) (value : BitVec 24) (second : Bool) : List Prim :=
  let d := x24Bytes c value second
  [.start, .write c.x24Addr, .write (x24Sub c second), .write d.b0, .write d.b1, .write d.b2, .stop]

/-- Of the answers to the first requests of such a transaction, those to its five Writes are acknowledges. -/
def x24Acked (vals : List Half) : Prop :=
  ∀ k (h : k < vals.length), 1 ≤ k → k ≤ 5 → vals[k].getLsbD 0 = true

/-- The phase of the error when request number `n` of such a transaction, a Write, is not acknowledged (60_exceptions.md R263). -/
def x24Phase (n : Nat) : Phase :=
  if n = 1 then .addr else if n = 2 then .subaddr else .data

/-- The bytes a transaction of WRM sent after its address and its sub-address. -/
def payload (trace : List Exchange) : List Byte :=
  (trace.filterMap fun e =>
    match e.request.prim with
    | .write b => some b
    | .start => none
    | .restart => none
    | .stop => none
    | .read _ => none
    | .swsel _ _ => none).drop 2

/-- STATUS after a command that ended `Ok` (10_state.md R42). -/
def okStatus (useq ack : Bool) : Status := ⟨true, false, false, false, .none, false, useq, ack⟩

/-- STATUS after a command that ended with `ProtocolError(p)` (10_state.md R42). -/
def errorStatus (p : Phase) (useq ack : Bool) : Status := ⟨true, true, false, false, p, false, useq, ack⟩

/-- A response with its fault information renamed. -/
def Response.mapInfo (f : PFInfo → PFInfo) (r : Response) : Response :=
  match r with
  | .ok v => .ok v
  | .fault info => .fault (f info)

/-- A state with every piece of fault information in it renamed. -/
def State.mapInfo (f : PFInfo → PFInfo) (s : State) : State :=
  { s with
    pfinfo := f s.pfinfo
    answers := s.answers.map (Response.mapInfo f)
    trace := s.trace.map fun e => { e with response := e.response.mapInfo f } }

/-- A result with every piece of fault information in its next state renamed. -/
def mapResult (f : PFInfo → PFInfo) (r : Host.Outcome State Fault Refusal) : Host.Outcome State Fault Refusal :=
  match r with
  | .next s => .next (s.mapInfo f)
  | .fault e => .fault e
  | .refused e => .refused e

/-- Two states that differ in nothing but CMD. -/
def SameButCmd (s t : State) : Prop := { s with cmd := t.cmd } = t

end Sys2Proof.Machine
end

