-- ==== Sys2Proof/Certificates/Slice0/Obligations.lean ====
section
/-! DEFINITION. The statements for the provers. Each docstring names the rule of spec/ it formalises. IDX is a free value outside S_WDATA and
S_READ and `free` counts the free values (log 5): a statement that gives a whole next state `t` leaves `t.idx` and `t.free` open
there by writing `idx := t.idx, free := t.free`. Everything else of the state is then fixed: such a statement is also a frame. -/

open Sys2Proof Sys2Proof.Machine

/-! ## Encoding -/

/-- Decoding the word of a command that is legal on instance `c` with LEN = `len` gives the command back (30_encoding.md R101 to R105). -/
def Obligations.DecodeOfEncodeIsTheCommand : Prop :=
  ∀ (c : Config) (len : Half) (i : Instr), i.wellFormed c len = true → decodeAt c len (encode i) = .ok i

/-- A word that decodes is the word of what it decodes to: no bit of a legal word is dropped (30_encoding.md R101 to R105, R110). -/
def Obligations.EncodeOfDecodeIsTheWord : Prop :=
  ∀ (c : Config) (len : Half) (w : Word) (i : Instr), decodeAt c len w = .ok i → encode i = w

/-- 30_encoding.md R104: the rows by match and mask, with the further conditions of the table; OP values with no row; at most one row
for any word. -/
def Obligations.DecodeFollowsTheOpcodeTable : Prop :=
  ∀ (c : Config) (len : Half) (w : Word),
    (∀ bus addr, decodeAt c len w = .ok (.poll bus addr) ↔
      w &&& 0xFF0000FF = 0x10000000 ∧ bus = w.extractLsb' 16 8 ∧ addr = w.extractLsb' 8 8 ∧ bus.toNat < c.nbus) ∧
    (∀ f bus addr data, decodeAt c len w = .ok (.wrb f bus addr data) ↔
      w &&& 0xF7000000 = 0x20000000 ∧ f = w.getLsbD 27 ∧ bus = w.extractLsb' 16 8 ∧ addr = w.extractLsb' 8 8 ∧
        data = w.extractLsb' 0 8 ∧ bus.toNat < c.nbus) ∧
    (∀ bus addr, decodeAt c len w = .ok (.rdb bus addr) ↔
      w &&& 0xFF0000FF = 0x30000000 ∧ bus = w.extractLsb' 16 8 ∧ addr = w.extractLsb' 8 8 ∧ bus.toNat < c.nbus) ∧
    (∀ f bus addr sub, decodeAt c len w = .ok (.wrm f bus addr sub) ↔
      w &&& 0xF7000000 = 0x40000000 ∧ f = w.getLsbD 27 ∧ bus = w.extractLsb' 16 8 ∧ addr = w.extractLsb' 8 8 ∧
        sub = w.extractLsb' 0 8 ∧ bus.toNat < c.nbus ∧ len.toNat ≤ c.maxlen) ∧
    (∀ bus addr sub, decodeAt c len w = .ok (.rdm bus addr sub) ↔
      w &&& 0xFF000000 = 0x50000000 ∧ bus = w.extractLsb' 16 8 ∧ addr = w.extractLsb' 8 8 ∧
        sub = w.extractLsb' 0 8 ∧ bus.toNat < c.nbus ∧ len.toNat ≤ c.maxlen) ∧
    (∀ ch, decodeAt c len w = .ok (.swsel ch) ↔ w &&& 0xFFFFFFF8 = 0x80000000 ∧ ch = w.extractLsb' 0 3) ∧
    (decodeAt c len w = .ok .swdes ↔ w &&& 0xFFFFFFFF = 0x90000000) ∧
    (∀ value, decodeAt c len w = .ok (.x24set value) ↔ w &&& 0xFF000000 = 0xA0000000 ∧ value = w.extractLsb' 0 24) ∧
    (∀ data, decodeAt c len w = .ok (.x8drv data) ↔ w &&& 0xFFFFFF00 = 0xB0000000 ∧ data = w.extractLsb' 0 8) ∧
    (decodeAt c len w = .ok .x8sns ↔ w &&& 0xFFFFFFFF = 0xC0000000) ∧
    (w.extractLsb' 28 4 ∈ [0x0, 0x6, 0x7, 0xD, 0xE, 0xF] → ∀ i, decodeAt c len w ≠ .ok i) ∧
    (([(0x10000000, 0xFF0000FF), (0x20000000, 0xF7000000), (0x30000000, 0xFF0000FF), (0x40000000, 0xF7000000),
        (0x50000000, 0xFF000000), (0x80000000, 0xFFFFFFF8), (0x90000000, 0xFFFFFFFF), (0xA0000000, 0xFF000000),
        (0xB0000000, 0xFFFFFF00), (0xC0000000, 0xFFFFFFFF)] : List (Word × Word)).filter
      fun r => w &&& r.2 == r.1).length ≤ 1

/-- 30_encoding.md R107: the illegal words, listed; and no channel outside 0 .. 7 can be expressed. -/
def Obligations.IllegalWordsAreExactlyTheListed : Prop :=
  ∀ (c : Config) (len : Half) (w : Word),
    (∀ ch, decodeAt c len w = .ok (.swsel ch) → ch.toNat ≤ 7) ∧
    ((∃ why, decodeAt c len w = .illegal why) ↔
      (w.extractLsb' 28 4 ∈ [0x0, 0x6, 0x7, 0xD, 0xE, 0xF]) ∨
      (w.extractLsb' 28 4 ∈ [0x1, 0x2, 0x3, 0x4, 0x5] ∧ w.extractLsb' 24 3 ≠ 0) ∨
      (w.extractLsb' 28 4 ∈ [0x8, 0x9, 0xA, 0xB, 0xC] ∧ w.extractLsb' 24 4 ≠ 0) ∨
      (w.extractLsb' 28 4 ∈ [0x1, 0x3, 0x5] ∧ w.getLsbD 27 = true) ∨
      (w.extractLsb' 28 4 ∈ [0x1, 0x3] ∧ w.extractLsb' 0 8 ≠ 0) ∨
      (w.extractLsb' 28 4 = 0x8 ∧ w.extractLsb' 3 21 ≠ 0) ∨
      (w.extractLsb' 28 4 ∈ [0x9, 0xC] ∧ w.extractLsb' 0 24 ≠ 0) ∨
      (w.extractLsb' 28 4 = 0xB ∧ w.extractLsb' 8 16 ≠ 0) ∨
      (w.extractLsb' 28 4 ∈ [0x1, 0x2, 0x3, 0x4, 0x5] ∧ c.nbus ≤ (w.extractLsb' 16 8).toNat) ∨
      (w.extractLsb' 28 4 ∈ [0x4, 0x5] ∧ c.maxlen < len.toNat))

/-- The words 30_encoding.md R111 gives as examples decode to the commands it gives beside them. -/
def Obligations.SpecExampleWordsDecode : Prop :=
  decode 0x10004400 = .ok (.poll 0 0x44) ∧
  decode 0x28007CA5 = .ok (.wrb true 0 0x7c 0xA5) ∧
  decode 0x20007CA5 = .ok (.wrb false 0 0x7c 0xA5) ∧
  decode 0x30007C00 = .ok (.rdb 0 0x7c) ∧
  decode 0x48014484 = .ok (.wrm true 1 0x44 0x84) ∧
  decode 0x40014484 = .ok (.wrm false 1 0x44 0x84) ∧
  decode 0x50014484 = .ok (.rdm 1 0x44 0x84) ∧
  decode 0x80000003 = .ok (.swsel 3) ∧
  decode 0x90000000 = .ok .swdes ∧
  decode 0xA0123456 = .ok (.x24set 0x123456) ∧
  decode 0xB00000F0 = .ok (.x8drv 0xF0) ∧
  decode 0xC0000000 = .ok .x8sns

/-- 30_encoding.md R106: the values built from operands. -/
def Obligations.OperandsAreAssembledAsTheTableSays : Prop :=
  (∀ a : Byte, readAddress a = a ||| 0x01) ∧
  (∀ td : TD, firstAddress td = if td.kind = .rdb then td.addr ||| 0x01 else td.addr) ∧
  (oneHot 0 = 0x01 ∧ oneHot 1 = 0x02 ∧ oneHot 2 = 0x04 ∧ oneHot 3 = 0x08 ∧
    oneHot 4 = 0x10 ∧ oneHot 5 = 0x20 ∧ oneHot 6 = 0x40 ∧ oneHot 7 = 0x80) ∧
  (∀ ch : BitVec 3, commandMask (encode (.swsel ch)) = .next (0x01#8 <<< ch.toNat)) ∧
  commandMask (encode .swdes) = .next 0x00 ∧
  (∀ (value : BitVec 24) (k : Fin 3) (j : Nat), j < 8 → (lane value k).getLsbD j = value.getLsbD (8 * k.val + j)) ∧
  (∀ i n : Half, notLast i n = true ↔ i.toNat + 1 < n.toNat) ∧
  (∀ i n : Half, isLast i n = true ↔ i.toNat + 1 = n.toNat)

/-- 44_adapter_exp24.md R243: lane k is bits 8k+7 to 8k; the three bytes are the lanes X24_LANES names, and the default order is
least significant byte first. -/
def Obligations.ValueBytesFollowTheLanes : Prop :=
  (∀ (l : Lanes) (value : BitVec 24),
    wireBytes l value = ⟨value.extractLsb' (8 * l.first.val) 8, value.extractLsb' (8 * l.second.val) 8,
      value.extractLsb' (8 * l.third.val) 8⟩) ∧
  (∀ value : BitVec 24,
    (wireBytes ⟨0, 1, 2⟩ value).b2 ++ (wireBytes ⟨0, 1, 2⟩ value).b1 ++ (wireBytes ⟨0, 1, 2⟩ value).b0 = value) ∧
  wireBytes ⟨0, 1, 2⟩ 0x123456 = ⟨0x56, 0x34, 0x12⟩ ∧
  wireBytes ⟨2, 1, 0⟩ 0x123456 = ⟨0x12, 0x34, 0x56⟩ ∧
  wireBytes ⟨1, 2, 0⟩ 0x123456 = ⟨0x34, 0x12, 0x56⟩

/-- 40_primitive_port.md R149: the request message. -/
def Obligations.RequestMessageLayout : Prop :=
  ∀ (bus : Byte),
    (∀ p, (⟨bus, p⟩ : Request).pbus = bus ∧ (⟨bus, p⟩ : Request).pkind.toNat ≤ 5) ∧
    ((⟨bus, .start⟩ : Request).pkind = 0 ∧ (⟨bus, .start⟩ : Request).parg = 0) ∧
    ((⟨bus, .restart⟩ : Request).pkind = 1 ∧ (⟨bus, .restart⟩ : Request).parg = 0) ∧
    ((⟨bus, .stop⟩ : Request).pkind = 2 ∧ (⟨bus, .stop⟩ : Request).parg = 0) ∧
    (∀ b, (⟨bus, .write b⟩ : Request).pkind = 3 ∧ (⟨bus, .write b⟩ : Request).parg.extractLsb' 0 8 = b ∧
      (⟨bus, .write b⟩ : Request).parg.extractLsb' 8 8 = 0) ∧
    (∀ k, (⟨bus, .read k⟩ : Request).pkind = 4 ∧ (⟨bus, .read k⟩ : Request).parg.getLsbD 0 = k ∧
      (⟨bus, .read k⟩ : Request).parg.extractLsb' 1 15 = 0) ∧
    (∀ a m, (⟨bus, .swsel a m⟩ : Request).pkind = 5 ∧ (⟨bus, .swsel a m⟩ : Request).parg.extractLsb' 8 8 = a ∧
      (⟨bus, .swsel a m⟩ : Request).parg.extractLsb' 0 8 = m)

/-- 10_state.md R42, R43: the bits of STATUS as the host reads it. -/
def Obligations.StatusWordLayout : Prop :=
  ∀ s : State,
    ((statusWord s).getLsbD 0 = true ↔ s.st ≠ .idle) ∧
    (statusWord s).getLsbD 1 = s.status.done ∧
    (statusWord s).getLsbD 2 = s.status.err ∧
    (statusWord s).getLsbD 3 = s.status.pf ∧
    (statusWord s).getLsbD 4 = s.status.ill ∧
    (statusWord s).extractLsb' 5 3 =
      (match s.status.phase with | .none => 0 | .addr => 1 | .data => 2 | .subaddr => 3 | .readAddr => 4) ∧
    (statusWord s).getLsbD 8 = s.status.busOpen ∧
    (statusWord s).getLsbD 9 = s.status.useq ∧
    (statusWord s).getLsbD 10 = s.status.ack ∧
    (statusWord s).extractLsb' 11 5 = 0

/-! ## Issue -/

/-- 41_sequencer_fsm.md R160, R162: with the block idle and the word first among the host's operations, a step is `exec` of what the word
decodes to (30_encoding.md R105), the operation being taken from the list. -/
def Obligations.StepRunsTheDecodedCommand : Prop :=
  ∀ (s : State) (w : Word) (rest : List HostOp) (i : Instr),
    s.st = .idle → s.host = .issue w :: rest → decodeAt s.cfg s.len w = .ok i →
    step s = exec i { s with host := rest }

/-- The word placed by `withFetchWord` is what the next step runs (log 2). -/
def Obligations.StepRunsThePlacedWord : Prop :=
  ∀ (s : State) (nbits w : Nat) (i : Instr),
    decodeTableWord nbits w = some i → step (s.withFetchWord nbits w) = exec i { s with st := .idle }

/-- 30_encoding.md R108: issuing an illegal word sets DONE and ILL, clears ERR, PF, PHASE, USEQ, and does nothing else; its outcome is
Illegal. -/
def Obligations.IllegalWordOnlyReportsItself : Prop :=
  ∀ (s : State) (w : Word) (rest : List HostOp) (why : Illegal),
    s.st = .idle → s.host = .issue w :: rest → decodeAt s.cfg s.len w = .illegal why →
    ∃ t, step s = .next t ∧ outcome t = .illegal ∧
      t = { s with
        host := rest
        status := { s.status with done := true, ill := true, err := false, pf := false, phase := .none, useq := false } }

/-- A command that breaks a condition of 30_encoding.md R104 (its bus, or LEN for WRM and RDM) has the illegal word's effect (R107, R108). -/
def Obligations.IllFormedCommandIsIllegal : Prop :=
  ∀ (i : Instr) (s : State), i.wellFormed s.cfg s.len = false →
    exec i s = .next { s with
      status := { s.status with done := true, ill := true, err := false, pf := false, phase := .none, useq := false } }

/-- 41_sequencer_fsm.md R162, R163: what issue sets for each legal command, and nothing else (frame). -/
def Obligations.IssueSetsTheDescriptor : Prop :=
  ∀ s : State,
    let cleared : Status :=
      { s.status with done := false, err := false, pf := false, ill := false, phase := .none, useq := false }
    (∀ bus addr, bus.toNat < s.cfg.nbus → ∃ t, exec (.poll bus addr) s = .next t ∧
      t = { s with
        cmd := encode (.poll bus addr), status := { cleared with ack := false }
        td := ⟨.poll, bus, addr, 0, false, 0, .buf⟩, st := .start, idx := t.idx, free := t.free }) ∧
    (∀ f bus addr data, bus.toNat < s.cfg.nbus → ∃ t, exec (.wrb f bus addr data) s = .next t ∧
      t = { s with
        cmd := encode (.wrb f bus addr data), status := cleared
        td := ⟨.wrb, bus, addr, data, f, 0, .buf⟩, st := .start, idx := t.idx, free := t.free }) ∧
    (∀ bus addr, bus.toNat < s.cfg.nbus → ∃ t, exec (.rdb bus addr) s = .next t ∧
      t = { s with
        cmd := encode (.rdb bus addr), status := cleared, rdata := 0
        td := ⟨.rdb, bus, addr, 0, false, 1, .buf⟩, st := .start, idx := t.idx, free := t.free }) ∧
    (∀ f bus addr sub, bus.toNat < s.cfg.nbus → s.len.toNat ≤ s.cfg.maxlen →
      ∃ t, exec (.wrm f bus addr sub) s = .next t ∧
      t = { s with
        cmd := encode (.wrm f bus addr sub), status := cleared
        td := ⟨.wrm, bus, addr, sub, f, s.len, .buf⟩, st := .start, idx := t.idx, free := t.free }) ∧
    (∀ bus addr sub, bus.toNat < s.cfg.nbus → s.len.toNat ≤ s.cfg.maxlen →
      ∃ t, exec (.rdm bus addr sub) s = .next t ∧
      t = { s with
        cmd := encode (.rdm bus addr sub), status := cleared
        td := ⟨.rdm, bus, addr, sub, false, s.len, .buf⟩, st := .start, idx := t.idx, free := t.free }) ∧
    (∀ value, ∃ t, exec (.x24set value) s = .next t ∧
      t = { s with
        cmd := encode (.x24set value), status := cleared, xb := s.cfg.x24DirBytes
        td := ⟨.wrm, s.cfg.x24Bus, s.cfg.x24Addr, s.cfg.x24DirSub, true, 3, .xb⟩, st := .start
        idx := t.idx, free := t.free }) ∧
    (∀ data, ∃ t, exec (.x8drv data) s = .next t ∧
      t = { s with
        cmd := encode (.x8drv data), status := cleared
        td := ⟨.wrb, s.cfg.x8Bus, s.cfg.x8Addr, data, true, 0, .buf⟩, st := .start, idx := t.idx, free := t.free }) ∧
    (∃ t, exec .x8sns s = .next t ∧
      t = { s with
        cmd := encode .x8sns, status := cleared, rdata := 0
        td := ⟨.rdb, s.cfg.x8Bus, s.cfg.x8Addr, 0, false, 1, .buf⟩, st := .start, idx := t.idx, free := t.free }) ∧
    (∀ ch, ∃ t, exec (.swsel ch) s = .next t ∧
      t = { s with cmd := encode (.swsel ch), status := cleared, st := .swsel, idx := t.idx, free := t.free }) ∧
    (∃ t, exec .swdes s = .next t ∧
      t = { s with cmd := encode .swdes, status := cleared, st := .swsel, idx := t.idx, free := t.free })

/-! ## The sequencer, state by state -/

/-- 41_sequencer_fsm.md R164, R174 (STOP_AFTER_START_FAULT at its default): OPEN before the request, S_ADDR on ok, S_STOP on a fault. -/
def Obligations.StartOpensTheTransaction : Prop :=
  ∀ (s : State) (rest : List Response), s.st = .start →
    (∀ v, s.answers = .ok v :: rest → ∃ t, step s = .next t ∧
      t = { s with
        st := .addr, status := { s.status with busOpen := true }, answers := rest
        trace := s.trace ++ [⟨⟨s.td.bus, .start⟩, .ok v⟩], idx := t.idx, free := t.free }) ∧
    (∀ info, s.answers = .fault info :: rest → s.cfg.stopAfterStartFault = true → ∃ t, step s = .next t ∧
      t = { s with
        st := .stop, status := { s.status with busOpen := true, pf := true }, pfinfo := info, answers := rest
        trace := s.trace ++ [⟨⟨s.td.bus, .start⟩, .fault info⟩], idx := t.idx, free := t.free })

/-- 41_sequencer_fsm.md R165, R166, R167: the address byte and what its acknowledge does, by kind of transaction. -/
def Obligations.AddressByteDecides : Prop :=
  ∀ (s : State) (v : Half) (rest : List Response), s.st = .addr → s.answers = .ok v :: rest →
    let ack := v.getLsbD 0
    let asked (t : State) : State :=
      { s with
        answers := rest
        trace := s.trace ++
          [⟨⟨s.td.bus, .write (if s.td.kind = .rdb then s.td.addr ||| 0x01 else s.td.addr)⟩, .ok v⟩]
        idx := t.idx, free := t.free }
    ∃ t, step s = .next t ∧
      (s.td.kind = .poll → t = { asked t with st := .stop, status := { s.status with ack := ack } }) ∧
      (s.td.kind = .wrb → ack = true → t = { asked t with st := .data }) ∧
      (s.td.kind = .rdb → ack = true → t = { asked t with st := .read, idx := 0 }) ∧
      (s.td.kind = .wrm ∨ s.td.kind = .rdm → ack = true → t = { asked t with st := .sub }) ∧
      (s.td.kind = .wrb ∨ s.td.kind = .wrm ∨ s.td.kind = .rdm → ack = false →
        t = { asked t with st := .stop, status := { s.status with err := true, phase := .addr } }) ∧
      (s.td.kind = .rdb → ack = false →
        t = { asked t with st := .stop, status := { s.status with err := true, phase := .readAddr } })

/-- 41_sequencer_fsm.md R168: the data byte of writeByte. -/
def Obligations.DataByteNackRaisesOnlyIfRequired : Prop :=
  ∀ (s : State) (v : Half) (rest : List Response), s.st = .data → s.answers = .ok v :: rest →
    ∃ t, step s = .next t ∧
      t = { s with
        st := .stop, answers := rest
        trace := s.trace ++ [⟨⟨s.td.bus, .write s.td.arg⟩, .ok v⟩]
        status := if v.getLsbD 0 = false ∧ s.td.flag = true then { s.status with err := true, phase := .data } else s.status
        idx := t.idx, free := t.free }

/-- 41_sequencer_fsm.md R169: the sub-address byte of writeMany and readMany. -/
def Obligations.SubAddressByteDecides : Prop :=
  ∀ (s : State) (v : Half) (rest : List Response), s.st = .sub → s.answers = .ok v :: rest →
    s.td.kind = .wrm ∨ s.td.kind = .rdm →
    let asked (t : State) : State :=
      { s with
        answers := rest, trace := s.trace ++ [⟨⟨s.td.bus, .write s.td.arg⟩, .ok v⟩], idx := t.idx, free := t.free }
    ∃ t, step s = .next t ∧
      (v.getLsbD 0 = false → t = { asked t with st := .stop, status := { s.status with err := true, phase := .subaddr } }) ∧
      (v.getLsbD 0 = true → s.td.kind = .rdm → t = { asked t with st := .restart }) ∧
      (v.getLsbD 0 = true → s.td.kind = .wrm → s.td.n = 0 → t = { asked t with st := .stop }) ∧
      (v.getLsbD 0 = true → s.td.kind = .wrm → s.td.n ≠ 0 → t = { asked t with st := .wdata, idx := 0 })

/-- 41_sequencer_fsm.md R170: buffer byte IDX of writeMany, `d` being `BUF[IDX]` or `XB[IDX]`; IDX stays below TD.N. -/
def Obligations.BufferByteNackIsToleratedOnlyOnTheLast : Prop :=
  ∀ (s : State) (v : Half) (rest : List Response) (d : Byte), s.st = .wdata → s.answers = .ok v :: rest →
    (s.td.src = .buf → s.idx.toNat < s.cfg.maxlen ∧ Memory.read s.buf s.idx.toNat = some d) →
    (s.td.src = .xb → [s.xb.b0, s.xb.b1, s.xb.b2][s.idx.toNat]? = some d) →
    let last := s.idx.toNat + 1 = s.td.n.toNat
    let asked (t : State) : State :=
      { s with
        answers := rest, trace := s.trace ++ [⟨⟨s.td.bus, .write d⟩, .ok v⟩], idx := t.idx, free := t.free }
    ∃ t, step s = .next t ∧
      (v.getLsbD 0 = false → ¬last ∨ s.td.flag = true →
        t = { asked t with st := .stop, status := { s.status with err := true, phase := .data } }) ∧
      (v.getLsbD 0 = false → last → s.td.flag = false → t = { asked t with st := .stop }) ∧
      (v.getLsbD 0 = true → last → t = { asked t with st := .stop }) ∧
      (v.getLsbD 0 = true → ¬last → t = { asked t with idx := s.idx + 1 }) ∧
      (s.idx.toNat < s.td.n.toNat → t.st = .wdata → t.idx.toNat < t.td.n.toNat)

/-- 41_sequencer_fsm.md R171: the repeated start of readMany; OPEN stays as it is. -/
def Obligations.RestartLeadsToTheReadAddress : Prop :=
  ∀ (s : State) (v : Half) (rest : List Response), s.st = .restart → s.answers = .ok v :: rest →
    ∃ t, step s = .next t ∧
      t = { s with
        st := .addrR, answers := rest, trace := s.trace ++ [⟨⟨s.td.bus, .restart⟩, .ok v⟩], idx := t.idx, free := t.free }

/-- 41_sequencer_fsm.md R172: the read-direction address byte of readMany. -/
def Obligations.ReadAddressByteDecides : Prop :=
  ∀ (s : State) (v : Half) (rest : List Response), s.st = .addrR → s.answers = .ok v :: rest →
    let asked (t : State) : State :=
      { s with
        answers := rest, trace := s.trace ++ [⟨⟨s.td.bus, .write (s.td.addr ||| 0x01)⟩, .ok v⟩]
        idx := t.idx, free := t.free }
    ∃ t, step s = .next t ∧
      (v.getLsbD 0 = false → t = { asked t with st := .stop, status := { s.status with err := true, phase := .readAddr } }) ∧
      (v.getLsbD 0 = true → s.td.n = 0 → t = { asked t with st := .stop }) ∧
      (v.getLsbD 0 = true → s.td.n ≠ 0 → t = { asked t with st := .read, idx := 0 })

/-- 41_sequencer_fsm.md R178: one data byte read, with sendAck on all but the last; RDATA or `BUF[IDX]` is the only result, and every other
byte of BUF reads as before; IDX stays below TD.N. -/
def Obligations.ReadStoresTheByte : Prop :=
  ∀ (s : State) (v : Half) (rest : List Response), s.st = .read → s.answers = .ok v :: rest →
    s.td.kind = .rdb ∨ s.idx.toNat < s.cfg.maxlen →
    ∃ t, step s = .next t ∧
      t = { s with
        answers := rest
        trace := s.trace ++ [⟨⟨s.td.bus, .read (decide (s.idx.toNat + 1 < s.td.n.toNat))⟩, .ok v⟩]
        st := if s.idx.toNat + 1 = s.td.n.toNat then .stop else .read
        rdata := if s.td.kind = .rdb then v.extractLsb' 0 8 else s.rdata
        buf := t.buf, idx := t.idx, free := t.free } ∧
      (s.idx.toNat + 1 ≠ s.td.n.toNat → t.idx = s.idx + 1 ∧ t.free = s.free) ∧
      (s.idx.toNat < s.td.n.toNat → t.st = .read → t.idx.toNat < t.td.n.toNat) ∧
      (∀ j, Memory.read t.buf j =
        if s.td.kind ≠ .rdb ∧ j = s.idx.toNat then some (v.extractLsb' 0 8) else Memory.read s.buf j)

/-- 41_sequencer_fsm.md R173, R179 (IDX excepted, which is a free value in S_STOP, log 5): a fault answer in any of the states between the request
of Start and that of Stop records the fault and goes to S_STOP; nothing else changes. `q` is the request the state makes. -/
def Obligations.FaultInATransactionGoesToStop : Prop :=
  ∀ (s : State) (info : PFInfo) (rest : List Response) (q : Request),
    s.st.transacting = true → s.st ≠ .stop → (s.st = .start → s.cfg.stopAfterStartFault = true) →
    request s = .next q → s.answers = .fault info :: rest →
    ∃ t, step s = .next t ∧
      t = { s with
        st := .stop, pfinfo := info, answers := rest, trace := s.trace ++ [⟨q, .fault info⟩]
        status := { s.status with pf := true, busOpen := if s.st = .start then true else s.status.busOpen }
        idx := t.idx, free := t.free }

/-- 41_sequencer_fsm.md R175, R176, R177: Stop is requested once, whatever it answers; the second transaction of X24SET only after a clean
first one; otherwise the command ends. -/
def Obligations.StopEndsTheTransaction : Prop :=
  ∀ (s : State) (r : Response) (rest : List Response), s.st = .stop → s.answers = r :: rest →
    let status : Status :=
      { s.status with busOpen := false, pf := match r with | .ok _ => s.status.pf | .fault _ => true }
    let asked (t : State) : State :=
      { s with
        answers := rest, trace := s.trace ++ [⟨⟨s.td.bus, .stop⟩, r⟩]
        pfinfo := match r with | .ok _ => s.pfinfo | .fault info => info
        idx := t.idx, free := t.free }
    let again := s.cmd.extractLsb' 28 4 = 0xA ∧ s.status.useq = false ∧ s.status.err = false ∧ status.pf = false
    ∃ t, step s = .next t ∧
      (again → t = { asked t with
        st := .start, status := { status with useq := true }
        xb := wireBytes s.cfg.x24Lanes (s.cmd.extractLsb' 0 24)
        td := { s.td with arg := s.cfg.x24OutSub } }) ∧
      (¬again → t = { asked t with st := .idle, status := { status with done := true } })

/-- 41_sequencer_fsm.md R180: the one primitive of SWSEL and SWDES. -/
def Obligations.SwitchSelectEndsTheCommand : Prop :=
  ∀ (s : State) (r : Response) (rest : List Response) (mask : Byte), s.st = .swsel → s.answers = r :: rest →
    (s.cmd.extractLsb' 28 4 = 0x8 ∧ mask = 0x01#8 <<< (s.cmd.extractLsb' 0 3).toNat) ∨
      (s.cmd.extractLsb' 28 4 = 0x9 ∧ mask = 0x00) →
    ∃ t, step s = .next t ∧
      t = { s with
        st := .idle, answers := rest
        trace := s.trace ++ [⟨⟨s.cfg.swBus, .swsel s.cfg.swAddr mask⟩, r⟩]
        status := { s.status with done := true, pf := match r with | .ok _ => s.status.pf | .fault _ => true }
        pfinfo := match r with | .ok _ => s.pfinfo | .fault info => info
        idx := t.idx, free := t.free }

/-- 40_primitive_port.md R153: a response that never comes leaves the block in the state that made the request, BUSY, for ever. That the WHOLE
state stays, so that OPEN is not yet changed while a Start or a Stop is outstanding, is the model's choice (log 1, DEDUCED from
41_sequencer_fsm.md R160: without a response there is no step; R164 and R175 write OPEN before the request). The list of the
answers to come is the model's own (log 1). -/
def Obligations.UnansweredRequestWaitsForEver : Prop :=
  ∀ (s : State) (k : Nat), s.st ≠ .idle → s.answers = [] →
    Runs k s s ∧ (∀ t, Runs k s t → t = s) ∧ (statusWord s).getLsbD 0 = true

/-- 20_memory.md R74: reading an entry of BUF no one has written is the model's fault, and so is a WRM that would send one; after reset no
entry is written. -/
def Obligations.UnwrittenEntryFaults : Prop :=
  (∀ (c : Config) (i : Nat), Memory.read (State.resetOf c).buf i = none) ∧
  (∀ (s : State) (i : Nat), i < s.cfg.maxlen → Memory.read s.buf i = none → bufRead s i = .fault (.bufUnwritten i)) ∧
  ∀ (s : State), s.st = .wdata → s.td.src = .buf → s.answers ≠ [] → s.idx.toNat < s.cfg.maxlen →
    Memory.read s.buf s.idx.toNat = none → step s = .fault (.bufUnwritten s.idx.toNat)

/-! ## Whole commands: from issue to the end -/

/-- 42_engine_ops.md R201: POLL answers ACK or NACK as its result, never an error. -/
def Obligations.PollCompletes : Prop :=
  ∀ (s : State) (bus addr : Byte) (v0 v1 v2 : Half) (rest : List Response),
    s.st = .idle → bus.toNat < s.cfg.nbus → s.answers = .ok v0 :: .ok v1 :: .ok v2 :: rest →
    ∃ t u, exec (.poll bus addr) s = .next t ∧ Runs 3 t u ∧
      u = { s with
        cmd := encode (.poll bus addr), td := ⟨.poll, bus, addr, 0, false, 0, .buf⟩
        status := okStatus false (v1.getLsbD 0), answers := rest
        trace := s.trace ++
          [⟨⟨bus, .start⟩, .ok v0⟩, ⟨⟨bus, .write addr⟩, .ok v1⟩, ⟨⟨bus, .stop⟩, .ok v2⟩]
        idx := u.idx, free := u.free }

/-- 42_engine_ops.md R203: WRB with its address acknowledged, then with its address not acknowledged (the data byte is not sent). -/
def Obligations.WrbCompletes : Prop :=
  ∀ (s : State) (f : Bool) (bus addr data : Byte) (v0 v1 v2 v3 : Half) (rest : List Response),
    s.st = .idle → bus.toNat < s.cfg.nbus → s.answers = .ok v0 :: .ok v1 :: .ok v2 :: .ok v3 :: rest →
    (v1.getLsbD 0 = true → ∃ t u, exec (.wrb f bus addr data) s = .next t ∧ Runs 4 t u ∧
      u = { s with
        cmd := encode (.wrb f bus addr data), td := ⟨.wrb, bus, addr, data, f, 0, .buf⟩
        status := if v2.getLsbD 0 = false ∧ f = true then errorStatus .data false s.status.ack else okStatus false s.status.ack
        answers := rest
        trace := s.trace ++ [⟨⟨bus, .start⟩, .ok v0⟩, ⟨⟨bus, .write addr⟩, .ok v1⟩, ⟨⟨bus, .write data⟩, .ok v2⟩,
          ⟨⟨bus, .stop⟩, .ok v3⟩]
        idx := u.idx, free := u.free }) ∧
    (v1.getLsbD 0 = false → ∃ t u, exec (.wrb f bus addr data) s = .next t ∧ Runs 3 t u ∧
      u = { s with
        cmd := encode (.wrb f bus addr data), td := ⟨.wrb, bus, addr, data, f, 0, .buf⟩
        status := errorStatus .addr false s.status.ack, answers := .ok v3 :: rest
        trace := s.trace ++ [⟨⟨bus, .start⟩, .ok v0⟩, ⟨⟨bus, .write addr⟩, .ok v1⟩, ⟨⟨bus, .stop⟩, .ok v2⟩]
        idx := u.idx, free := u.free })

/-- 42_engine_ops.md R204: RDB with its address acknowledged, then not (RDATA is then 0 and the phase READ_ADDR). -/
def Obligations.RdbCompletes : Prop :=
  ∀ (s : State) (bus addr : Byte) (v0 v1 v2 v3 : Half) (rest : List Response),
    s.st = .idle → bus.toNat < s.cfg.nbus → s.answers = .ok v0 :: .ok v1 :: .ok v2 :: .ok v3 :: rest →
    (v1.getLsbD 0 = true → ∃ t u, exec (.rdb bus addr) s = .next t ∧ Runs 4 t u ∧
      u = { s with
        cmd := encode (.rdb bus addr), td := ⟨.rdb, bus, addr, 0, false, 1, .buf⟩, rdata := v2.extractLsb' 0 8
        status := okStatus false s.status.ack, answers := rest
        trace := s.trace ++ [⟨⟨bus, .start⟩, .ok v0⟩, ⟨⟨bus, .write (addr ||| 0x01)⟩, .ok v1⟩,
          ⟨⟨bus, .read false⟩, .ok v2⟩, ⟨⟨bus, .stop⟩, .ok v3⟩]
        idx := u.idx, free := u.free }) ∧
    (v1.getLsbD 0 = false → ∃ t u, exec (.rdb bus addr) s = .next t ∧ Runs 3 t u ∧
      u = { s with
        cmd := encode (.rdb bus addr), td := ⟨.rdb, bus, addr, 0, false, 1, .buf⟩, rdata := 0
        status := errorStatus .readAddr false s.status.ack, answers := .ok v3 :: rest
        trace := s.trace ++ [⟨⟨bus, .start⟩, .ok v0⟩, ⟨⟨bus, .write (addr ||| 0x01)⟩, .ok v1⟩, ⟨⟨bus, .stop⟩, .ok v2⟩]
        idx := u.idx, free := u.free })

/-- 42_engine_ops.md R206, R207: WRM of the bytes `bytes` = `BUF[0 .. LEN-1]`, each acknowledged but perhaps the last when `ackLast` = 0; `LEN` = 0
included. -/
def Obligations.WrmCompletes : Prop :=
  ∀ (s : State) (f : Bool) (bus addr sub : Byte) (bytes : List Byte) (v0 v1 v2 vStop : Half) (vals : List Half)
    (rest : List Response),
    s.st = .idle → bus.toNat < s.cfg.nbus → s.len.toNat ≤ s.cfg.maxlen → bytes.length = s.len.toNat →
    (∀ k (h : k < bytes.length), Memory.read s.buf k = some bytes[k]) →
    vals.length = bytes.length → v1.getLsbD 0 = true → v2.getLsbD 0 = true →
    (∀ k (h : k < vals.length), k + 1 < vals.length ∨ f = true → vals[k].getLsbD 0 = true) →
    s.answers = oks ([v0, v1, v2] ++ vals ++ [vStop]) ++ rest →
    ∃ t u, exec (.wrm f bus addr sub) s = .next t ∧ Runs (4 + bytes.length) t u ∧
      u = { s with
        cmd := encode (.wrm f bus addr sub), td := ⟨.wrm, bus, addr, sub, f, s.len, .buf⟩
        status := okStatus false s.status.ack, answers := rest
        trace := s.trace ++ [⟨⟨bus, .start⟩, .ok v0⟩, ⟨⟨bus, .write addr⟩, .ok v1⟩, ⟨⟨bus, .write sub⟩, .ok v2⟩] ++
          writes bus bytes vals ++ [⟨⟨bus, .stop⟩, .ok vStop⟩]
        idx := u.idx, free := u.free }

/-- 42_engine_ops.md R206, R207: WRM whose buffer byte number `bytes.length` (the bytes before it acknowledged) is not acknowledged and not
tolerated: no further byte is sent. -/
def Obligations.WrmStopsAtTheFirstNackedByte : Prop :=
  ∀ (s : State) (f : Bool) (bus addr sub : Byte) (bytes : List Byte) (b : Byte) (v0 v1 v2 vNack vStop : Half)
    (vals : List Half) (rest : List Response),
    s.st = .idle → bus.toNat < s.cfg.nbus → s.len.toNat ≤ s.cfg.maxlen → bytes.length < s.len.toNat →
    bytes.length + 1 < s.len.toNat ∨ f = true →
    (∀ k (h : k < bytes.length), Memory.read s.buf k = some bytes[k]) → Memory.read s.buf bytes.length = some b →
    vals.length = bytes.length → v1.getLsbD 0 = true → v2.getLsbD 0 = true → (∀ v ∈ vals, v.getLsbD 0 = true) →
    vNack.getLsbD 0 = false →
    s.answers = oks ([v0, v1, v2] ++ vals ++ [vNack, vStop]) ++ rest →
    ∃ t u, exec (.wrm f bus addr sub) s = .next t ∧ Runs (5 + bytes.length) t u ∧
      u = { s with
        cmd := encode (.wrm f bus addr sub), td := ⟨.wrm, bus, addr, sub, f, s.len, .buf⟩
        status := errorStatus .data false s.status.ack, answers := rest
        trace := s.trace ++ [⟨⟨bus, .start⟩, .ok v0⟩, ⟨⟨bus, .write addr⟩, .ok v1⟩, ⟨⟨bus, .write sub⟩, .ok v2⟩] ++
          writes bus bytes vals ++ [⟨⟨bus, .write b⟩, .ok vNack⟩, ⟨⟨bus, .stop⟩, .ok vStop⟩]
        idx := u.idx, free := u.free }

/-- 42_engine_ops.md R206, R208: an address or sub-address of WRM or RDM that is not acknowledged ends the transaction with ADDR or SUBADDR, BUF
unchanged. -/
def Obligations.WrmRdmHeaderNackEndsTheCommand : Prop :=
  ∀ (s : State) (i : Instr) (k : Kind) (f : Bool) (bus addr sub : Byte) (v0 v1 v2 v3 : Half) (rest : List Response),
    s.st = .idle → bus.toNat < s.cfg.nbus → s.len.toNat ≤ s.cfg.maxlen →
    (i = .wrm f bus addr sub ∧ k = .wrm) ∨ (i = .rdm bus addr sub ∧ k = .rdm ∧ f = false) →
    s.answers = .ok v0 :: .ok v1 :: .ok v2 :: .ok v3 :: rest →
    (v1.getLsbD 0 = false → ∃ t u, exec i s = .next t ∧ Runs 3 t u ∧
      u = { s with
        cmd := encode i, td := ⟨k, bus, addr, sub, f, s.len, .buf⟩
        status := errorStatus .addr false s.status.ack, answers := .ok v3 :: rest
        trace := s.trace ++ [⟨⟨bus, .start⟩, .ok v0⟩, ⟨⟨bus, .write addr⟩, .ok v1⟩, ⟨⟨bus, .stop⟩, .ok v2⟩]
        idx := u.idx, free := u.free }) ∧
    (v1.getLsbD 0 = true → v2.getLsbD 0 = false → ∃ t u, exec i s = .next t ∧ Runs 4 t u ∧
      u = { s with
        cmd := encode i, td := ⟨k, bus, addr, sub, f, s.len, .buf⟩
        status := errorStatus .subaddr false s.status.ack, answers := rest
        trace := s.trace ++ [⟨⟨bus, .start⟩, .ok v0⟩, ⟨⟨bus, .write addr⟩, .ok v1⟩, ⟨⟨bus, .write sub⟩, .ok v2⟩,
          ⟨⟨bus, .stop⟩, .ok v3⟩]
        idx := u.idx, free := u.free })

/-- 42_engine_ops.md R208, R209; 20_memory.md R73: RDM of LEN bytes stores the bytes read in BUF in order and changes no other entry; `LEN` = 0
included. -/
def Obligations.RdmCompletes : Prop :=
  ∀ (s : State) (bus addr sub : Byte) (v0 v1 v2 v3 v4 vStop : Half) (vals : List Half) (rest : List Response),
    s.st = .idle → bus.toNat < s.cfg.nbus → s.len.toNat ≤ s.cfg.maxlen → vals.length = s.len.toNat →
    v1.getLsbD 0 = true → v2.getLsbD 0 = true → v4.getLsbD 0 = true →
    s.answers = oks ([v0, v1, v2, v3, v4] ++ vals ++ [vStop]) ++ rest →
    ∃ t u, exec (.rdm bus addr sub) s = .next t ∧ Runs (6 + vals.length) t u ∧
      u = { s with
        cmd := encode (.rdm bus addr sub), td := ⟨.rdm, bus, addr, sub, false, s.len, .buf⟩
        status := okStatus false s.status.ack, answers := rest
        trace := s.trace ++ [⟨⟨bus, .start⟩, .ok v0⟩, ⟨⟨bus, .write addr⟩, .ok v1⟩, ⟨⟨bus, .write sub⟩, .ok v2⟩,
          ⟨⟨bus, .restart⟩, .ok v3⟩, ⟨⟨bus, .write (addr ||| 0x01)⟩, .ok v4⟩] ++
          reads bus vals ++ [⟨⟨bus, .stop⟩, .ok vStop⟩]
        buf := u.buf, idx := u.idx, free := u.free } ∧
      (∀ j, Memory.read u.buf j = if h : j < vals.length then some (vals[j].extractLsb' 0 8) else Memory.read s.buf j)

/-- 42_engine_ops.md R208: the read-direction address of RDM not acknowledged: READ_ADDR, no read, BUF unchanged. -/
def Obligations.RdmReadAddressNackEndsTheCommand : Prop :=
  ∀ (s : State) (bus addr sub : Byte) (v0 v1 v2 v3 v4 v5 : Half) (rest : List Response),
    s.st = .idle → bus.toNat < s.cfg.nbus → s.len.toNat ≤ s.cfg.maxlen →
    v1.getLsbD 0 = true → v2.getLsbD 0 = true → v4.getLsbD 0 = false →
    s.answers = .ok v0 :: .ok v1 :: .ok v2 :: .ok v3 :: .ok v4 :: .ok v5 :: rest →
    ∃ t u, exec (.rdm bus addr sub) s = .next t ∧ Runs 6 t u ∧
      u = { s with
        cmd := encode (.rdm bus addr sub), td := ⟨.rdm, bus, addr, sub, false, s.len, .buf⟩
        status := errorStatus .readAddr false s.status.ack, answers := rest
        trace := s.trace ++ [⟨⟨bus, .start⟩, .ok v0⟩, ⟨⟨bus, .write addr⟩, .ok v1⟩, ⟨⟨bus, .write sub⟩, .ok v2⟩,
          ⟨⟨bus, .restart⟩, .ok v3⟩, ⟨⟨bus, .write (addr ||| 0x01)⟩, .ok v4⟩, ⟨⟨bus, .stop⟩, .ok v5⟩]
        idx := u.idx, free := u.free }

/-- 43_adapter_switch.md R232, R233: SWSEL sends the one-hot mask, SWDES the zero mask, in one primitive; no transaction opens at this port. -/
def Obligations.SwitchCommandsComplete : Prop :=
  ∀ (s : State) (v : Half) (rest : List Response), s.st = .idle → s.answers = .ok v :: rest →
    (∀ ch : BitVec 3, ∃ t u, exec (.swsel ch) s = .next t ∧ Runs 1 t u ∧
      u = { s with
        cmd := encode (.swsel ch), status := { okStatus false s.status.ack with busOpen := s.status.busOpen }
        answers := rest
        trace := s.trace ++ [⟨⟨s.cfg.swBus, .swsel s.cfg.swAddr (0x01#8 <<< ch.toNat)⟩, .ok v⟩]
        idx := u.idx, free := u.free }) ∧
    (∃ t u, exec .swdes s = .next t ∧ Runs 1 t u ∧
      u = { s with
        cmd := encode .swdes, status := { okStatus false s.status.ack with busOpen := s.status.busOpen }
        answers := rest
        trace := s.trace ++ [⟨⟨s.cfg.swBus, .swsel s.cfg.swAddr 0x00⟩, .ok v⟩]
        idx := u.idx, free := u.free })

/-- 44_adapter_exp24.md R241, R246: X24SET with every byte acknowledged: the direction write, then the value write in lane order; USEQ = 1. -/
def Obligations.X24setCompletes : Prop :=
  ∀ (s : State) (value : BitVec 24) (v0 v1 v2 v3 v4 v5 v6 v7 v8 v9 v10 v11 v12 v13 : Half) (rest : List Response),
    s.st = .idle →
    (∀ v ∈ [v1, v2, v3, v4, v5, v8, v9, v10, v11, v12], v.getLsbD 0 = true) →
    s.answers = oks [v0, v1, v2, v3, v4, v5, v6, v7, v8, v9, v10, v11, v12, v13] ++ rest →
    let c := s.cfg
    let b := c.x24Bus
    let out (k : Fin 3) : Byte := value.extractLsb' (8 * k.val) 8
    ∃ t u, exec (.x24set value) s = .next t ∧ Runs 14 t u ∧
      u = { s with
        cmd := encode (.x24set value), td := ⟨.wrm, b, c.x24Addr, c.x24OutSub, true, 3, .xb⟩
        xb := ⟨out c.x24Lanes.first, out c.x24Lanes.second, out c.x24Lanes.third⟩
        status := okStatus true s.status.ack, answers := rest
        trace := s.trace ++ [⟨⟨b, .start⟩, .ok v0⟩] ++
          writes b [c.x24Addr, c.x24DirSub, c.x24DirBytes.b0, c.x24DirBytes.b1, c.x24DirBytes.b2] [v1, v2, v3, v4, v5] ++
          [⟨⟨b, .stop⟩, .ok v6⟩, ⟨⟨b, .start⟩, .ok v7⟩] ++
          writes b [c.x24Addr, c.x24OutSub, out c.x24Lanes.first, out c.x24Lanes.second, out c.x24Lanes.third]
            [v8, v9, v10, v11, v12] ++
          [⟨⟨b, .stop⟩, .ok v13⟩]
        idx := u.idx, free := u.free }

/-- 44_adapter_exp24.md R245: X24SET that fails in its first (`second` = false) or its second transaction, at request number `n` of it (0 Start, 1
address, 2 sub-address, 3 to 5 data bytes, 6 Stop), the requests before it answered without failure: by an unmet acknowledge,
by a fault before Stop, by a fault of Stop. The transaction gets its one Stop, no other transaction follows, and USEQ tells
which one failed; the requests before the failure have been made. A Stop after a failure may itself be answered by a fault
(60_exceptions.md R271). For a faulted Start, STOP_AFTER_START_FAULT is at its default (log 11). -/
def Obligations.X24setPartialFailure : Prop :=
  ∀ (s : State) (value : BitVec 24) (second : Bool) (first vals : List Half) (rest : List Response),
    s.st = .idle → first.length = (if second then 7 else 0) → x24Acked first → x24Acked vals →
    let c := s.cfg
    let n := vals.length
    let prims := x24Prims c value second
    let ended (u : State) (status : Status) (info : PFInfo) (made : List Prim) (responses : List Response) : State :=
      { s with
        cmd := encode (.x24set value), td := ⟨.wrm, c.x24Bus, c.x24Addr, x24Sub c second, true, 3, .xb⟩
        xb := x24Bytes c value second, status := status, pfinfo := info, answers := rest
        trace := s.trace ++ exchanges c.x24Bus (x24Prims c value false) (oks first) ++ exchanges c.x24Bus made responses
        idx := u.idx, free := u.free }
    (∀ v r, 1 ≤ n → n ≤ 5 → v.getLsbD 0 = false → s.answers = oks first ++ oks vals ++ [.ok v, r] ++ rest →
      ∃ t u, exec (.x24set value) s = .next t ∧ Runs (first.length + n + 2) t u ∧
      u = ended u { errorStatus (x24Phase n) second s.status.ack with pf := r.faulted } (r.infoAfter s.pfinfo)
        (prims.take (n + 1) ++ [.stop]) (oks vals ++ [.ok v, r])) ∧
    (∀ info r, n ≤ 5 → (n = 0 → c.stopAfterStartFault = true) → s.answers = oks first ++ oks vals ++ [.fault info, r] ++ rest →
      ∃ t u, exec (.x24set value) s = .next t ∧ Runs (first.length + n + 2) t u ∧
      u = ended u { okStatus second s.status.ack with pf := true } (r.infoAfter info)
        (prims.take (n + 1) ++ [.stop]) (oks vals ++ [.fault info, r])) ∧
    (∀ info, n = 6 → s.answers = oks first ++ oks vals ++ [.fault info] ++ rest →
      ∃ t u, exec (.x24set value) s = .next t ∧ Runs (first.length + 7) t u ∧
      u = ended u { okStatus second s.status.ack with pf := true } info prims (oks vals ++ [.fault info]))

/-- 45_adapter_exp8.md R251: X8DRV, its address acknowledged, then not. -/
def Obligations.X8drvCompletes : Prop :=
  ∀ (s : State) (data : Byte) (v0 v1 v2 v3 : Half) (rest : List Response),
    s.st = .idle → s.answers = .ok v0 :: .ok v1 :: .ok v2 :: .ok v3 :: rest →
    let b := s.cfg.x8Bus
    let a := s.cfg.x8Addr
    (v1.getLsbD 0 = true → ∃ t u, exec (.x8drv data) s = .next t ∧ Runs 4 t u ∧
      u = { s with
        cmd := encode (.x8drv data), td := ⟨.wrb, b, a, data, true, 0, .buf⟩
        status := if v2.getLsbD 0 = false then errorStatus .data false s.status.ack else okStatus false s.status.ack
        answers := rest
        trace := s.trace ++
          [⟨⟨b, .start⟩, .ok v0⟩, ⟨⟨b, .write a⟩, .ok v1⟩, ⟨⟨b, .write data⟩, .ok v2⟩, ⟨⟨b, .stop⟩, .ok v3⟩]
        idx := u.idx, free := u.free }) ∧
    (v1.getLsbD 0 = false → ∃ t u, exec (.x8drv data) s = .next t ∧ Runs 3 t u ∧
      u = { s with
        cmd := encode (.x8drv data), td := ⟨.wrb, b, a, data, true, 0, .buf⟩
        status := errorStatus .addr false s.status.ack, answers := .ok v3 :: rest
        trace := s.trace ++ [⟨⟨b, .start⟩, .ok v0⟩, ⟨⟨b, .write a⟩, .ok v1⟩, ⟨⟨b, .stop⟩, .ok v2⟩]
        idx := u.idx, free := u.free })

/-- 45_adapter_exp8.md R252: X8SNS, its address acknowledged, then not (RDATA is then 0). -/
def Obligations.X8snsCompletes : Prop :=
  ∀ (s : State) (v0 v1 v2 v3 : Half) (rest : List Response),
    s.st = .idle → s.answers = .ok v0 :: .ok v1 :: .ok v2 :: .ok v3 :: rest →
    let b := s.cfg.x8Bus
    let a := s.cfg.x8Addr
    (v1.getLsbD 0 = true → ∃ t u, exec .x8sns s = .next t ∧ Runs 4 t u ∧
      u = { s with
        cmd := encode .x8sns, td := ⟨.rdb, b, a, 0, false, 1, .buf⟩, rdata := v2.extractLsb' 0 8
        status := okStatus false s.status.ack, answers := rest
        trace := s.trace ++
          [⟨⟨b, .start⟩, .ok v0⟩, ⟨⟨b, .write (a ||| 0x01)⟩, .ok v1⟩, ⟨⟨b, .read false⟩, .ok v2⟩, ⟨⟨b, .stop⟩, .ok v3⟩]
        idx := u.idx, free := u.free }) ∧
    (v1.getLsbD 0 = false → ∃ t u, exec .x8sns s = .next t ∧ Runs 3 t u ∧
      u = { s with
        cmd := encode .x8sns, td := ⟨.rdb, b, a, 0, false, 1, .buf⟩, rdata := 0
        status := errorStatus .readAddr false s.status.ack, answers := .ok v3 :: rest
        trace := s.trace ++ [⟨⟨b, .start⟩, .ok v0⟩, ⟨⟨b, .write (a ||| 0x01)⟩, .ok v1⟩, ⟨⟨b, .stop⟩, .ok v2⟩]
        idx := u.idx, free := u.free })

/-- 45_adapter_exp8.md R254: X8DRV and X8SNS run, step for step, exactly as WRB and RDB on the adapter's bus and address; only CMD tells them
apart. -/
def Obligations.ExpanderCommandsAreEngineCommands : Prop :=
  ∀ (s : State) (i j : Instr) (data : Byte) (a b : State),
    s.cfg.x8Bus.toNat < s.cfg.nbus →
    (i = .x8drv data ∧ j = .wrb true s.cfg.x8Bus s.cfg.x8Addr data) ∨ (i = .x8sns ∧ j = .rdb s.cfg.x8Bus s.cfg.x8Addr) →
    exec i s = .next a → exec j s = .next b →
    ∀ (k : Nat) (u : State), Runs k a u → ∃ w, Runs k b w ∧ SameButCmd u w

/-- 42_engine_ops.md R210: what WRM wrote, an environment that returns it gives RDM back, whatever the host wrote into BUF in between. -/
def Obligations.WriteThenReadBackIsTheIdentity : Prop :=
  ∀ (s : State) (f : Bool) (bus addr sub : Byte) (bytes : List Byte) (clobber : List (Half × Byte))
    (w0 w1 w2 wStop r0 r1 r2 r3 r4 rStop : Half) (acks data : List Half) (host : List HostOp) (rest : List Response),
    s.st = .idle → bus.toNat < s.cfg.nbus → s.len.toNat ≤ s.cfg.maxlen → bytes.length = s.len.toNat →
    (∀ k (h : k < bytes.length), Memory.read s.buf k = some bytes[k]) →
    (∀ c ∈ clobber, c.1.toNat < s.cfg.maxlen) →
    acks.length = bytes.length → data.length = bytes.length →
    (∀ v ∈ w1 :: w2 :: r1 :: r2 :: r4 :: acks, v.getLsbD 0 = true) →
    s.host = .issue (encode (.wrm f bus addr sub)) ::
      (clobber.map (fun c => .bufWrite c.1 c.2) ++ .issue (encode (.rdm bus addr sub)) :: host) →
    s.answers = oks ([w0, w1, w2] ++ acks ++ [wStop, r0, r1, r2, r3, r4] ++ data ++ [rStop]) ++ rest →
    ∃ t, Runs (5 + bytes.length) s t ∧ outcome t = .ok ∧
      (data.map (fun v => v.extractLsb' 0 8) = payload (t.trace.drop s.trace.length) →
        ∃ u, Runs (clobber.length + (7 + bytes.length)) t u ∧ u.st = .idle ∧ u.status.done = true ∧ outcome u = .ok ∧
          ∀ k (h : k < bytes.length), Memory.read u.buf k = some bytes[k])

/-! ## The host port and reset -/

/-- 10_state.md R53: SetLen and HostBufWrite, the block being idle; every other byte of BUF reads as before. -/
def Obligations.HostWritesLenAndBuf : Prop :=
  ∀ (s : State) (rest : List HostOp), s.st = .idle →
    (∀ v, s.host = .setLen v :: rest → step s = .next { s with len := v, host := rest }) ∧
    (∀ i v, s.host = .bufWrite i v :: rest → i.toNat < s.cfg.maxlen → ∃ t, step s = .next t ∧
      t = { s with buf := t.buf, host := rest } ∧
      ∀ j, Memory.read t.buf j = if j = i.toNat then some v else Memory.read s.buf j) ∧
    (∀ i v, s.host = .bufWrite i v :: rest → s.cfg.maxlen ≤ i.toNat → step s = .fault (.bufOutOfRange i.toNat))

/-- 10_state.md R52, R53; 70_reset_and_hazards.md R311: while the block is BUSY the port is closed: no host operation is taken and LEN and CMD
do not change. -/
def Obligations.PortIsClosedWhileBusy : Prop :=
  ∀ (s t : State), s.st ≠ .idle → step s = .next t → t.host = s.host ∧ t.len = s.len ∧ t.cmd = s.cmd

/-- 10_state.md R54; 70_reset_and_hazards.md R312: STATUS is read at any time, results only when the block is idle and DONE = 1, and are otherwise
refused. -/
def Obligations.ResultsAreReadWhenDone : Prop :=
  ∀ (s : State) (i : Half),
    hostReadStatus s = statusWord s ∧
    (s.st = .idle → s.status.done = true →
      hostReadRdata s = .next s.rdata ∧ hostReadPfinfo s = .next s.pfinfo ∧
      (i.toNat < s.cfg.maxlen → ∀ v, Memory.read s.buf i.toNat = some v → hostReadBuf i s = .next v)) ∧
    (s.st ≠ .idle ∨ s.status.done = false →
      hostReadRdata s = .refused .hostReadNotAllowed ∧ hostReadPfinfo s = .refused .hostReadNotAllowed ∧
      hostReadBuf i s = .refused .hostReadNotAllowed)

/-- 10_state.md R57: the values after reset, and that no primitive has been requested; for every instance of the block. -/
def Obligations.ResetValues : Prop :=
  ∀ c : Config,
    (State.resetOf c).st = .idle ∧ (State.resetOf c).status = ⟨false, false, false, false, .none, false, false, false⟩ ∧
    (State.resetOf c).rdata = 0 ∧ (State.resetOf c).len = 0 ∧ (∀ i, Memory.read (State.resetOf c).buf i = none) ∧
    (State.resetOf c).cfg = c ∧ (State.resetOf c).trace = [] ∧ statusWord (State.resetOf c) = 0x0000

/-- 70_reset_and_hazards.md R302, 41_sequencer_fsm.md R160: after reset the block is idle, and an idle block does nothing of its own: with nothing
listed for the host (log 2) no step, and so no number of steps, changes anything, and until the host issues a command no
step leaves IDLE or requests a primitive. -/
def Obligations.NothingHappensAfterReset : Prop :=
  (∀ c : Config, (State.resetOf c).st = .idle) ∧
  (∀ s : State, s.st = .idle → s.host = [] →
    step s = .next s ∧ ∀ k : Nat, Runs k s s ∧ ∀ t, Runs k s t → t = s) ∧
  (∀ s t : State, s.st = .idle → (∀ w, s.host.head? ≠ some (.issue w)) → step s = .next t →
    t.st = .idle ∧ t.trace = s.trace ∧ t.answers = s.answers)

/-- 70_reset_and_hazards.md R300, R301 (the registers R57 leaves unspecified take the model's reset values, log 6): the reset input, taken while
idle, requests no primitive and keeps nothing of the block but its configuration. -/
def Obligations.ResetInputRequestsNothing : Prop :=
  ∀ (s : State) (rest : List HostOp), s.st = .idle → s.host = .reset :: rest → ∃ t, step s = .next t ∧
    t.trace = s.trace ∧ t.answers = s.answers ∧ t.host = rest ∧ t.cfg = s.cfg ∧ t.st = .idle ∧
    t.status = ⟨false, false, false, false, .none, false, false, false⟩ ∧ t.rdata = 0 ∧ t.len = 0 ∧
    ∀ i, Memory.read t.buf i = none

/-! ## The whole machine -/

/-- The invariant holds after reset, on every instance. -/
def Obligations.ResetMeetsTheInvariant : Prop := ∀ c : Config, Invariant (State.resetOf c) ∧ Bracketed (State.resetOf c)

/-- Every step keeps the invariant, for every host operation and every answer of the environment (10_state.md R44; 41_sequencer_fsm.md R163,
R181, R186; 20_memory.md R70). -/
def Obligations.StepKeepsTheInvariant : Prop := ∀ s t : State, Invariant s → step s = .next t → Invariant t

/-- 00_scope.md R17, 41_sequencer_fsm.md R186 (INV-BRACKET): whatever fails and whenever, each Start is followed by exactly one Stop before the
next, bytes move only in between, and OPEN says where the trace stands. With STOP_AFTER_START_FAULT at its default. -/
def Obligations.StepKeepsTheBracket : Prop :=
  ∀ s t : State, Invariant s → s.cfg.stopAfterStartFault = true → Bracketed s → step s = .next t → Bracketed t

/-- The only stops: a WRM that would send an entry of BUF never written (20_memory.md R74) and a host write outside BUF (10_state.md R53). No
step is ever refused. -/
def Obligations.OnlyTwoStopsExist : Prop :=
  (∀ (s : State) (x : Refusal), step s ≠ .refused x) ∧
  (∀ (s : State) (e : Fault), Invariant s → step s = .fault e →
    (e = .bufUnwritten s.idx.toNat ∧ s.st = .wdata ∧ s.td.src = .buf ∧ Memory.read s.buf s.idx.toNat = none) ∨
    (∃ i v rest, e = .bufOutOfRange i.toNat ∧ s.st = .idle ∧ s.host = .bufWrite i v :: rest ∧ s.cfg.maxlen ≤ i.toNat))

/-- 41_sequencer_fsm.md R189: every legal command ends, within its bound of primitives, if the environment answers each request and the payload of a
WRM has been written; each step but the issue makes one request. -/
def Obligations.EveryCommandEndsWithinItsBound : Prop :=
  ∀ (s : State) (i : Instr), Invariant s → s.st = .idle → i.wellFormed s.cfg s.len = true → PayloadReady s i →
    commandBound s.cfg s.len i ≤ s.answers.length →
    ∃ (t u : State) (k : Nat), exec i s = .next t ∧ 1 ≤ k ∧ k ≤ commandBound s.cfg s.len i ∧ Runs k t u ∧
      u.st = .idle ∧ u.status.done = true ∧ u.trace.length = s.trace.length + k

/-- 41_sequencer_fsm.md R183, R184: from the states between Start and Stop the sequencer moves only to such states and S_STOP; IDLE is reached only
from S_STOP and S_SWSEL. With STOP_AFTER_START_FAULT at its default. -/
def Obligations.IdleIsReachedOnlyThroughStop : Prop :=
  ∀ s t : State, s.st ≠ .idle → s.cfg.stopAfterStartFault = true → s.answers ≠ [] → step s = .next t →
    (s.st ≠ .stop → s.st ≠ .swsel → t.st.inTransaction = true) ∧
    (s.st = .stop → t.st = .idle ∨ t.st = .start) ∧
    (s.st = .swsel → t.st = .idle)

/-- 41_sequencer_fsm.md R190; 60_exceptions.md R262, R271, R272: after an error or a fault the only further primitive is one Stop; the command then ends
with the error still recorded, a faulted Stop adding PF and its information. The outcome is then PrimFault if PF is set, whether or not
ERR is too, and otherwise the ProtocolError of the phase (R260). -/
def Obligations.AfterAnErrorOnlyStopFollows : Prop :=
  ∀ (s : State) (r : Response) (rest : List Response), Invariant s → s.st ≠ .idle →
    s.status.err = true ∨ s.status.pf = true → s.answers = r :: rest →
    ∃ t, step s = .next t ∧ t.st = .idle ∧ t.status.done = true ∧ t.status.busOpen = false ∧
      t.status.err = s.status.err ∧ t.status.phase = s.status.phase ∧
      t.status.pf = (match r with | .ok _ => s.status.pf | .fault _ => true) ∧
      t.pfinfo = (match r with | .ok _ => s.pfinfo | .fault info => info) ∧
      outcome t = (if t.status.pf then .primFault t.pfinfo else .protocolError t.status.phase) ∧
      t.trace = s.trace ++ [⟨⟨s.td.bus, .stop⟩, r⟩]

/-- 60_exceptions.md R263, R264: every cause of a BusProtocolError, and only these: an unmet acknowledge in the named state and transaction. -/
def Obligations.EveryProtocolErrorHasItsCause : Prop :=
  ∀ s t : State, Invariant s → step s = .next t → s.status.err = false → t.status.err = true →
    ∃ b v, t.trace = s.trace ++ [⟨⟨s.td.bus, .write b⟩, .ok v⟩] ∧ v.getLsbD 0 = false ∧ t.st = .stop ∧
      ((t.status.phase = .addr ∧ s.st = .addr ∧ (s.td.kind = .wrb ∨ s.td.kind = .wrm ∨ s.td.kind = .rdm)) ∨
       (t.status.phase = .data ∧ s.st = .data ∧ s.td.kind = .wrb ∧ s.td.flag = true) ∨
       (t.status.phase = .data ∧ s.st = .wdata ∧ s.td.kind = .wrm ∧
          (s.idx.toNat + 1 < s.td.n.toNat ∨ s.td.flag = true)) ∨
       (t.status.phase = .subaddr ∧ s.st = .sub ∧ (s.td.kind = .wrm ∨ s.td.kind = .rdm)) ∨
       (t.status.phase = .readAddr ∧ s.st = .addr ∧ s.td.kind = .rdb) ∨
       (t.status.phase = .readAddr ∧ s.st = .addrR ∧ s.td.kind = .rdm))

/-- What a primitive step leaves unchanged (10_state.md R36, R38, R40, R41; 20_memory.md R71; 42_engine_ops.md R212): each register changes only in the
states the spec names. -/
def Obligations.PrimitiveStepFrame : Prop :=
  ∀ s t : State, s.st ≠ .idle → step s = .next t →
    t.cmd = s.cmd ∧ t.len = s.len ∧ t.cfg = s.cfg ∧ t.host = s.host ∧ t.status.ill = s.status.ill ∧
    { t.td with arg := s.td.arg } = s.td ∧
    (∀ j, Memory.read t.buf j = Memory.read s.buf j ∨ (s.st = .read ∧ s.td.kind ≠ .rdb ∧ j = s.idx.toNat)) ∧
    (t.rdata = s.rdata ∨ (s.st = .read ∧ s.td.kind = .rdb)) ∧
    (t.status.ack = s.status.ack ∨ (s.st = .addr ∧ s.td.kind = .poll)) ∧
    ((t.xb = s.xb ∧ t.td.arg = s.td.arg ∧ t.status.useq = s.status.useq) ∨
      (s.st = .stop ∧ t.st = .start ∧ s.cmd.extractLsb' 28 4 = 0xA)) ∧
    (t.pfinfo = s.pfinfo ∨ ∃ rest, s.answers = .fault t.pfinfo :: rest ∧ t.status.pf = true)

/-- 40_primitive_port.md R140, R148; 20_memory.md R87: a step makes at most one request, takes exactly one response for it, and names no bus but TD.BUS
or, in S_SWSEL, SW_BUS. -/
def Obligations.OneRequestOneResponse : Prop :=
  ∀ s t : State, step s = .next t →
    (t.trace = s.trace ∧ t.answers = s.answers) ∨
    (∃ (p : Prim) (r : Response), s.st ≠ .idle ∧ s.answers = r :: t.answers ∧
      t.trace = s.trace ++ [⟨⟨if s.st = .swsel then s.cfg.swBus else s.td.bus, p⟩, r⟩])

/-- 60_exceptions.md R266; 10_state.md R45: the information a fault carries is copied and never inspected: renaming it everywhere renames it in the
result and changes nothing else (so the type chosen for it, log 10, does not matter). The reset input writes the model's reset value
of PFINFO (log 6), which the renaming then has to keep. -/
def Obligations.FaultInformationIsOnlyCopied : Prop :=
  ∀ (f : PFInfo → PFInfo) (s : State), f ⟨0⟩ = ⟨0⟩ ∨ s.host.head? ≠ some .reset →
    step (s.mapInfo f) = mapResult f (step s)

/-- 60_exceptions.md R260: the outcome of a command, ILL before PF before ERR. -/
def Obligations.OutcomeIsReadInThisOrder : Prop :=
  ∀ s : State,
    (s.status.ill = true → outcome s = .illegal) ∧
    (s.status.ill = false → s.status.pf = true → outcome s = .primFault s.pfinfo) ∧
    (s.status.ill = false → s.status.pf = false → s.status.err = true → outcome s = .protocolError s.status.phase) ∧
    (s.status.ill = false → s.status.pf = false → s.status.err = false → outcome s = .ok)
end

