-- ==== Sys2Proof/Laws/Decode.lean ====
section
/-! SUPPORT. The fields of an encoded word: what each accessor reads from the two formats (30_encoding.md R101, R102). -/

namespace Sys2Proof

section Fields

variable (op : BitVec 4) (f : Bool) (bus addr arg : Byte) (imm : BitVec 24)

@[simp] theorem opField_encodeE : opField (encodeE op f bus addr arg) = op := by
  apply BitVec.eq_of_getLsbD_eq
  intro i hi
  simp only [opField, encodeE, BitVec.getLsbD_extractLsb', BitVec.getLsbD_append]
  interval_cases i <;> simp

@[simp] theorem flagField_encodeE : flagField (encodeE op f bus addr arg) = f := by
  simp only [flagField, encodeE, BitVec.getLsbD_append]
  simp

@[simp] theorem reservedE_encodeE : reservedE (encodeE op f bus addr arg) = 0 := by
  apply BitVec.eq_of_getLsbD_eq
  intro i hi
  simp only [reservedE, encodeE, BitVec.getLsbD_extractLsb', BitVec.getLsbD_append]
  interval_cases i <;> simp

@[simp] theorem busField_encodeE : busField (encodeE op f bus addr arg) = bus := by
  apply BitVec.eq_of_getLsbD_eq
  intro i hi
  simp only [busField, encodeE, BitVec.getLsbD_extractLsb', BitVec.getLsbD_append]
  interval_cases i <;> simp

@[simp] theorem addrField_encodeE : addrField (encodeE op f bus addr arg) = addr := by
  apply BitVec.eq_of_getLsbD_eq
  intro i hi
  simp only [addrField, encodeE, BitVec.getLsbD_extractLsb', BitVec.getLsbD_append]
  interval_cases i <;> simp

@[simp] theorem argField_encodeE : argField (encodeE op f bus addr arg) = arg := by
  apply BitVec.eq_of_getLsbD_eq
  intro i hi
  simp only [argField, encodeE, BitVec.getLsbD_extractLsb', BitVec.getLsbD_append]
  interval_cases i <;> simp

@[simp] theorem opField_encodeD : opField (encodeD op imm) = op := by
  apply BitVec.eq_of_getLsbD_eq
  intro i hi
  simp only [opField, encodeD, BitVec.getLsbD_extractLsb', BitVec.getLsbD_append]
  interval_cases i <;> simp

@[simp] theorem reservedD_encodeD : reservedD (encodeD op imm) = 0 := by
  apply BitVec.eq_of_getLsbD_eq
  intro i hi
  simp only [reservedD, encodeD, BitVec.getLsbD_extractLsb', BitVec.getLsbD_append]
  interval_cases i <;> simp

@[simp] theorem immField_encodeD : immField (encodeD op imm) = imm := by
  apply BitVec.eq_of_getLsbD_eq
  intro i hi
  simp only [immField, encodeD, BitVec.getLsbD_extractLsb', BitVec.getLsbD_append]
  interval_cases i <;> simp

theorem chField_eq_immField (w : Word) : chField w = (immField w).extractLsb' 0 3 := by
  apply BitVec.eq_of_getLsbD_eq
  intro i hi
  interval_cases i <;> simp [chField, immField]

theorem immAboveCh_eq_immField (w : Word) : immAboveCh w = (immField w).extractLsb' 3 21 := by
  apply BitVec.eq_of_getLsbD_eq
  intro i hi
  interval_cases i <;> simp [immAboveCh, immField]

theorem immAboveByte_eq_immField (w : Word) : immAboveByte w = (immField w).extractLsb' 8 16 := by
  apply BitVec.eq_of_getLsbD_eq
  intro i hi
  interval_cases i <;> simp [immAboveByte, immField]

theorem argField_eq_immField (w : Word) : argField w = (immField w).extractLsb' 0 8 := by
  apply BitVec.eq_of_getLsbD_eq
  intro i hi
  interval_cases i <;> simp [argField, immField]

theorem low3_setWidth (ch : BitVec 3) : (ch.setWidth 24).extractLsb' 0 3 = ch := by
  apply BitVec.eq_of_getLsbD_eq
  intro i hi
  interval_cases i <;> simp

theorem high21_setWidth (ch : BitVec 3) : (ch.setWidth 24).extractLsb' 3 21 = 0 := by
  apply BitVec.eq_of_getLsbD_eq
  intro i hi
  interval_cases i <;> simp

theorem low8_setWidth (b : Byte) : (b.setWidth 24).extractLsb' 0 8 = b := by
  apply BitVec.eq_of_getLsbD_eq
  intro i hi
  interval_cases i <;> simp

theorem high16_setWidth (b : Byte) : (b.setWidth 24).extractLsb' 8 16 = 0 := by
  apply BitVec.eq_of_getLsbD_eq
  intro i hi
  interval_cases i <;> simp

@[simp] theorem chField_encodeD_ch (ch : BitVec 3) : chField (encodeD op (ch.setWidth 24)) = ch := by
  rw [chField_eq_immField, immField_encodeD, low3_setWidth]

@[simp] theorem immAboveCh_encodeD_ch (ch : BitVec 3) : immAboveCh (encodeD op (ch.setWidth 24)) = 0 := by
  rw [immAboveCh_eq_immField, immField_encodeD, high21_setWidth]

@[simp] theorem argField_encodeD_byte (b : Byte) : argField (encodeD op (b.setWidth 24)) = b := by
  rw [argField_eq_immField, immField_encodeD, low8_setWidth]

@[simp] theorem immAboveByte_encodeD_byte (b : Byte) : immAboveByte (encodeD op (b.setWidth 24)) = 0 := by
  rw [immAboveByte_eq_immField, immField_encodeD, high16_setWidth]

end Fields

/-- What a format E word must be to decode (R101, R104). -/
theorem decodeE_ok_iff (w : Word) (flagAllowed argAllowed : Bool) (i j : Instr) :
    decodeE w flagAllowed argAllowed i = .ok j ↔
      reservedE w = 0 ∧ (flagAllowed = true ∨ flagField w = false) ∧ (argAllowed = true ∨ argField w = 0) ∧ i = j := by
  unfold decodeE
  cases flagAllowed <;> cases argAllowed <;> by_cases hr : reservedE w = 0#3 <;> cases hf : flagField w <;>
    by_cases ha : argField w = 0#8 <;> simp [hr, ha]

/-- What a format D word must be to decode (R102, R104). -/
theorem decodeD_ok_iff (w : Word) (mustBeZeroIsZero : Bool) (i j : Instr) :
    decodeD w mustBeZeroIsZero i = .ok j ↔ reservedD w = 0 ∧ mustBeZeroIsZero = true ∧ i = j := by
  unfold decodeD
  cases mustBeZeroIsZero <;> by_cases hr : reservedD w = 0#4 <;> simp [hr]

/-- The two conditions beyond the encoding (R104, R105). -/
theorem decodeAt_ok_iff (c : Config) (len : Half) (w : Word) (i : Instr) :
    decodeAt c len w = .ok i ↔ decode w = .ok i ∧ i.wellFormed c len = true := by
  cases hd : decode w with
  | illegal why => simp [decodeAt, hd]
  | ok j =>
    cases hb : j.busInRange c <;> cases hl : j.lenInRange c len <;> simp [decodeAt, hd, hb, hl, Instr.wellFormed] <;>
      rintro rfl <;> simp [hb, hl]

end Sys2Proof
end

