-- ==== Sys2Proof/Laws/Memory.lean ====
section
/-! SUPPORT. The laws of BUF's list form: read after write, and that a write keeps the canonical form and the range
(20_memory.md R70). -/

namespace Sys2Proof.Machine

/-- A read after a write: the byte written at its index, the old byte everywhere else. -/
theorem Memory.read_write (m : Memory) (i j : Nat) (v : BitVec 8) :
    Memory.read (Memory.write m i v) j = if j = i then some v else Memory.read m j := by
  induction m with
  | nil => simp [Memory.write, Memory.read]
  | cons c rest ih =>
    obtain ⟨k, w⟩ := c
    simp only [Memory.write]
    split
    · simp [Memory.read]
    · split
      · rename_i h
        subst h
        simp only [Memory.read]
        split <;> rfl
      · simp only [Memory.read, ih]
        split
        · rename_i h1 h2 h3
          subst h3
          simp [Ne.symm h2]
        · rfl

@[simp] theorem Memory.read_write_same (m : Memory) (i : Nat) (v : BitVec 8) :
    Memory.read (Memory.write m i v) i = some v := by
  simp [Memory.read_write]

theorem Memory.read_write_of_ne (m : Memory) (i j : Nat) (v : BitVec 8) (h : j ≠ i) :
    Memory.read (Memory.write m i v) j = Memory.read m j := by
  simp [Memory.read_write, h]

@[simp] theorem Memory.read_nil (i : Nat) : Memory.read [] i = none := rfl

/-- Any property of the cells survives a write that has it. -/
theorem Memory.forall_write (P : Host.Cell → Prop) (m : Memory) (i : Nat) (v : BitVec 8) (hm : ∀ c ∈ m, P c)
    (hi : P (i, v)) : ∀ c ∈ Memory.write m i v, P c := by
  induction m with
  | nil => simpa [Memory.write] using hi
  | cons c rest ih =>
    obtain ⟨j, w⟩ := c
    have hr : ∀ c ∈ rest, P c := fun c hc => hm c (List.mem_cons_of_mem _ hc)
    have hj : P (j, w) := hm _ List.mem_cons_self
    simp only [Memory.write]
    split
    · exact List.forall_mem_cons.2 ⟨hi, List.forall_mem_cons.2 ⟨hj, hr⟩⟩
    · split
      · exact List.forall_mem_cons.2 ⟨hi, hr⟩
      · exact List.forall_mem_cons.2 ⟨hj, ih hr⟩

theorem Memory.above_iff (i : Nat) (m : Memory) : Memory.above i m = true ↔ ∀ c ∈ m, i < c.1 := by
  simp only [Memory.above, List.all_eq_true, decide_eq_true_eq]

theorem Memory.below_iff (n : Nat) (m : Memory) : Memory.below n m = true ↔ ∀ c ∈ m, c.1 < n := by
  simp only [Memory.below, List.all_eq_true, decide_eq_true_eq]

theorem Memory.wf_cons (j : Nat) (w : BitVec 8) (rest : Memory) :
    Memory.wf ((j, w) :: rest) = true ↔ (∀ c ∈ rest, j < c.1) ∧ Memory.wf rest = true := by
  rw [← Memory.above_iff, ← Bool.and_eq_true]
  rfl

/-- A write keeps the canonical form. -/
theorem Memory.wf_write (m : Memory) (i : Nat) (v : BitVec 8) (h : Memory.wf m = true) :
    Memory.wf (Memory.write m i v) = true := by
  induction m with
  | nil => rfl
  | cons c rest ih =>
    obtain ⟨j, w⟩ := c
    obtain ⟨hj, hr⟩ := (Memory.wf_cons j w rest).1 h
    simp only [Memory.write]
    split
    · rename_i hij
      exact (Memory.wf_cons ..).2 ⟨List.forall_mem_cons.2 ⟨hij, fun c hc => hij.trans (hj c hc)⟩, h⟩
    · split
      · rename_i hij
        subst hij
        exact (Memory.wf_cons ..).2 ⟨hj, hr⟩
      · exact (Memory.wf_cons ..).2 ⟨Memory.forall_write _ rest i v hj (by omega), ih hr⟩

/-- A write inside the range keeps the range. -/
theorem Memory.below_write (m : Memory) (n i : Nat) (v : BitVec 8) (h : Memory.below n m = true) (hi : i < n) :
    Memory.below n (Memory.write m i v) = true :=
  (Memory.below_iff n _).2 (Memory.forall_write _ m i v ((Memory.below_iff n m).1 h) hi)

end Sys2Proof.Machine
end

