-- ==== Sys2Proof/Laws/PerInstr.lean ====
section
/-! SUPPORT. Statements made instruction by instruction: one lemma per constructor of Instr. Family DecodeEncode: decoding the word of
a command gives the command back, with every operand at every value its field admits (30_encoding.md R101, R102, R104). -/

namespace Sys2Proof.Laws

/-- Decoding the encoding of `i` gives `i`. -/
def DecodeEncode.Statement (i : Instr) : Prop := decode (encode i) = .ok i

theorem DecodeEncode.poll (bus addr : Byte) : DecodeEncode.Statement (.poll bus addr) := by
  simp [DecodeEncode.Statement, decode, encode, decodeE]

theorem DecodeEncode.wrb (f : Bool) (bus addr data : Byte) : DecodeEncode.Statement (.wrb f bus addr data) := by
  simp [DecodeEncode.Statement, decode, encode, decodeE]

theorem DecodeEncode.rdb (bus addr : Byte) : DecodeEncode.Statement (.rdb bus addr) := by
  simp [DecodeEncode.Statement, decode, encode, decodeE]

theorem DecodeEncode.wrm (f : Bool) (bus addr sub : Byte) : DecodeEncode.Statement (.wrm f bus addr sub) := by
  simp [DecodeEncode.Statement, decode, encode, decodeE]

theorem DecodeEncode.rdm (bus addr sub : Byte) : DecodeEncode.Statement (.rdm bus addr sub) := by
  simp [DecodeEncode.Statement, decode, encode, decodeE]

theorem DecodeEncode.swsel (ch : BitVec 3) : DecodeEncode.Statement (.swsel ch) := by
  simp [DecodeEncode.Statement, decode, encode, decodeD]

theorem DecodeEncode.swdes : DecodeEncode.Statement .swdes := by
  simp [DecodeEncode.Statement, decode, encode, decodeD]

theorem DecodeEncode.x24set (value : BitVec 24) : DecodeEncode.Statement (.x24set value) := by
  simp [DecodeEncode.Statement, decode, encode, decodeD]

theorem DecodeEncode.x8drv (data : Byte) : DecodeEncode.Statement (.x8drv data) := by
  simp [DecodeEncode.Statement, decode, encode, decodeD]

theorem DecodeEncode.x8sns : DecodeEncode.Statement .x8sns := by
  simp [DecodeEncode.Statement, decode, encode, decodeD]

end Sys2Proof.Laws
end

