-- ==== Sys2Proof/Laws/State.lean ====
section
/-! SUPPORT. One lemma per field per update of State, each true by rfl, so that no proof unfolds a record update. -/

namespace Sys2Proof.Machine

@[simp] theorem goto_st (x : SeqState) (s : State) : (goto x s).st = x := rfl
@[simp] theorem goto_cmd (x : SeqState) (s : State) : (goto x s).cmd = s.cmd := rfl
@[simp] theorem goto_len (x : SeqState) (s : State) : (goto x s).len = s.len := rfl
@[simp] theorem goto_idx (x : SeqState) (s : State) : (goto x s).idx = Config.freeIdx s.free := rfl
@[simp] theorem goto_td (x : SeqState) (s : State) : (goto x s).td = s.td := rfl
@[simp] theorem goto_xb (x : SeqState) (s : State) : (goto x s).xb = s.xb := rfl
@[simp] theorem goto_rdata (x : SeqState) (s : State) : (goto x s).rdata = s.rdata := rfl
@[simp] theorem goto_status (x : SeqState) (s : State) : (goto x s).status = s.status := rfl
@[simp] theorem goto_pfinfo (x : SeqState) (s : State) : (goto x s).pfinfo = s.pfinfo := rfl
@[simp] theorem goto_buf (x : SeqState) (s : State) : (goto x s).buf = s.buf := rfl
@[simp] theorem goto_cfg (x : SeqState) (s : State) : (goto x s).cfg = s.cfg := rfl
@[simp] theorem goto_host (x : SeqState) (s : State) : (goto x s).host = s.host := rfl
@[simp] theorem goto_answers (x : SeqState) (s : State) : (goto x s).answers = s.answers := rfl
@[simp] theorem goto_trace (x : SeqState) (s : State) : (goto x s).trace = s.trace := rfl
@[simp] theorem goto_free (x : SeqState) (s : State) : (goto x s).free = s.free + 1 := rfl

@[simp] theorem enterLoop_st (x : SeqState) (s : State) : (enterLoop x s).st = x := rfl
@[simp] theorem enterLoop_cmd (x : SeqState) (s : State) : (enterLoop x s).cmd = s.cmd := rfl
@[simp] theorem enterLoop_len (x : SeqState) (s : State) : (enterLoop x s).len = s.len := rfl
@[simp] theorem enterLoop_idx (x : SeqState) (s : State) : (enterLoop x s).idx = 0 := rfl
@[simp] theorem enterLoop_td (x : SeqState) (s : State) : (enterLoop x s).td = s.td := rfl
@[simp] theorem enterLoop_xb (x : SeqState) (s : State) : (enterLoop x s).xb = s.xb := rfl
@[simp] theorem enterLoop_rdata (x : SeqState) (s : State) : (enterLoop x s).rdata = s.rdata := rfl
@[simp] theorem enterLoop_status (x : SeqState) (s : State) : (enterLoop x s).status = s.status := rfl
@[simp] theorem enterLoop_pfinfo (x : SeqState) (s : State) : (enterLoop x s).pfinfo = s.pfinfo := rfl
@[simp] theorem enterLoop_buf (x : SeqState) (s : State) : (enterLoop x s).buf = s.buf := rfl
@[simp] theorem enterLoop_cfg (x : SeqState) (s : State) : (enterLoop x s).cfg = s.cfg := rfl
@[simp] theorem enterLoop_host (x : SeqState) (s : State) : (enterLoop x s).host = s.host := rfl
@[simp] theorem enterLoop_answers (x : SeqState) (s : State) : (enterLoop x s).answers = s.answers := rfl
@[simp] theorem enterLoop_trace (x : SeqState) (s : State) : (enterLoop x s).trace = s.trace := rfl
@[simp] theorem enterLoop_free (x : SeqState) (s : State) : (enterLoop x s).free = s.free := rfl

@[simp] theorem nextIndex_st (s : State) : (nextIndex s).st = s.st := rfl
@[simp] theorem nextIndex_cmd (s : State) : (nextIndex s).cmd = s.cmd := rfl
@[simp] theorem nextIndex_len (s : State) : (nextIndex s).len = s.len := rfl
@[simp] theorem nextIndex_idx (s : State) : (nextIndex s).idx = s.idx + 1 := rfl
@[simp] theorem nextIndex_td (s : State) : (nextIndex s).td = s.td := rfl
@[simp] theorem nextIndex_xb (s : State) : (nextIndex s).xb = s.xb := rfl
@[simp] theorem nextIndex_rdata (s : State) : (nextIndex s).rdata = s.rdata := rfl
@[simp] theorem nextIndex_status (s : State) : (nextIndex s).status = s.status := rfl
@[simp] theorem nextIndex_pfinfo (s : State) : (nextIndex s).pfinfo = s.pfinfo := rfl
@[simp] theorem nextIndex_buf (s : State) : (nextIndex s).buf = s.buf := rfl
@[simp] theorem nextIndex_cfg (s : State) : (nextIndex s).cfg = s.cfg := rfl
@[simp] theorem nextIndex_host (s : State) : (nextIndex s).host = s.host := rfl
@[simp] theorem nextIndex_answers (s : State) : (nextIndex s).answers = s.answers := rfl
@[simp] theorem nextIndex_trace (s : State) : (nextIndex s).trace = s.trace := rfl
@[simp] theorem nextIndex_free (s : State) : (nextIndex s).free = s.free := rfl

@[simp] theorem exchange_st (q : Request) (r : Response) (s : State) : (exchange q r s).st = s.st := rfl
@[simp] theorem exchange_cmd (q : Request) (r : Response) (s : State) : (exchange q r s).cmd = s.cmd := rfl
@[simp] theorem exchange_len (q : Request) (r : Response) (s : State) : (exchange q r s).len = s.len := rfl
@[simp] theorem exchange_idx (q : Request) (r : Response) (s : State) : (exchange q r s).idx = s.idx := rfl
@[simp] theorem exchange_td (q : Request) (r : Response) (s : State) : (exchange q r s).td = s.td := rfl
@[simp] theorem exchange_xb (q : Request) (r : Response) (s : State) : (exchange q r s).xb = s.xb := rfl
@[simp] theorem exchange_rdata (q : Request) (r : Response) (s : State) : (exchange q r s).rdata = s.rdata := rfl
@[simp] theorem exchange_status (q : Request) (r : Response) (s : State) : (exchange q r s).status = s.status := rfl
@[simp] theorem exchange_pfinfo (q : Request) (r : Response) (s : State) : (exchange q r s).pfinfo = s.pfinfo := rfl
@[simp] theorem exchange_buf (q : Request) (r : Response) (s : State) : (exchange q r s).buf = s.buf := rfl
@[simp] theorem exchange_cfg (q : Request) (r : Response) (s : State) : (exchange q r s).cfg = s.cfg := rfl
@[simp] theorem exchange_host (q : Request) (r : Response) (s : State) : (exchange q r s).host = s.host := rfl
@[simp] theorem exchange_answers (q : Request) (r : Response) (s : State) : (exchange q r s).answers = s.answers.tail := rfl
@[simp] theorem exchange_trace (q : Request) (r : Response) (s : State) : (exchange q r s).trace = s.trace ++ [⟨q, r⟩] := rfl
@[simp] theorem exchange_free (q : Request) (r : Response) (s : State) : (exchange q r s).free = s.free := rfl

@[simp] theorem setOpen_st (b : Bool) (s : State) : (setOpen b s).st = s.st := rfl
@[simp] theorem setOpen_cmd (b : Bool) (s : State) : (setOpen b s).cmd = s.cmd := rfl
@[simp] theorem setOpen_len (b : Bool) (s : State) : (setOpen b s).len = s.len := rfl
@[simp] theorem setOpen_idx (b : Bool) (s : State) : (setOpen b s).idx = s.idx := rfl
@[simp] theorem setOpen_td (b : Bool) (s : State) : (setOpen b s).td = s.td := rfl
@[simp] theorem setOpen_xb (b : Bool) (s : State) : (setOpen b s).xb = s.xb := rfl
@[simp] theorem setOpen_rdata (b : Bool) (s : State) : (setOpen b s).rdata = s.rdata := rfl
@[simp] theorem setOpen_status (b : Bool) (s : State) : (setOpen b s).status = { s.status with busOpen := b } := rfl
@[simp] theorem setOpen_pfinfo (b : Bool) (s : State) : (setOpen b s).pfinfo = s.pfinfo := rfl
@[simp] theorem setOpen_buf (b : Bool) (s : State) : (setOpen b s).buf = s.buf := rfl
@[simp] theorem setOpen_cfg (b : Bool) (s : State) : (setOpen b s).cfg = s.cfg := rfl
@[simp] theorem setOpen_host (b : Bool) (s : State) : (setOpen b s).host = s.host := rfl
@[simp] theorem setOpen_answers (b : Bool) (s : State) : (setOpen b s).answers = s.answers := rfl
@[simp] theorem setOpen_trace (b : Bool) (s : State) : (setOpen b s).trace = s.trace := rfl
@[simp] theorem setOpen_free (b : Bool) (s : State) : (setOpen b s).free = s.free := rfl

@[simp] theorem recordFault_st (info : PFInfo) (s : State) : (recordFault info s).st = s.st := rfl
@[simp] theorem recordFault_cmd (info : PFInfo) (s : State) : (recordFault info s).cmd = s.cmd := rfl
@[simp] theorem recordFault_len (info : PFInfo) (s : State) : (recordFault info s).len = s.len := rfl
@[simp] theorem recordFault_idx (info : PFInfo) (s : State) : (recordFault info s).idx = s.idx := rfl
@[simp] theorem recordFault_td (info : PFInfo) (s : State) : (recordFault info s).td = s.td := rfl
@[simp] theorem recordFault_xb (info : PFInfo) (s : State) : (recordFault info s).xb = s.xb := rfl
@[simp] theorem recordFault_rdata (info : PFInfo) (s : State) : (recordFault info s).rdata = s.rdata := rfl
@[simp] theorem recordFault_status (info : PFInfo) (s : State) : (recordFault info s).status = { s.status with pf := true } := rfl
@[simp] theorem recordFault_pfinfo (info : PFInfo) (s : State) : (recordFault info s).pfinfo = info := rfl
@[simp] theorem recordFault_buf (info : PFInfo) (s : State) : (recordFault info s).buf = s.buf := rfl
@[simp] theorem recordFault_cfg (info : PFInfo) (s : State) : (recordFault info s).cfg = s.cfg := rfl
@[simp] theorem recordFault_host (info : PFInfo) (s : State) : (recordFault info s).host = s.host := rfl
@[simp] theorem recordFault_answers (info : PFInfo) (s : State) : (recordFault info s).answers = s.answers := rfl
@[simp] theorem recordFault_trace (info : PFInfo) (s : State) : (recordFault info s).trace = s.trace := rfl
@[simp] theorem recordFault_free (info : PFInfo) (s : State) : (recordFault info s).free = s.free := rfl

@[simp] theorem raisePrimFault_st (info : PFInfo) (s : State) : (raisePrimFault info s).st = .stop := rfl
@[simp] theorem raisePrimFault_cmd (info : PFInfo) (s : State) : (raisePrimFault info s).cmd = s.cmd := rfl
@[simp] theorem raisePrimFault_len (info : PFInfo) (s : State) : (raisePrimFault info s).len = s.len := rfl
@[simp] theorem raisePrimFault_idx (info : PFInfo) (s : State) : (raisePrimFault info s).idx = Config.freeIdx s.free := rfl
@[simp] theorem raisePrimFault_td (info : PFInfo) (s : State) : (raisePrimFault info s).td = s.td := rfl
@[simp] theorem raisePrimFault_xb (info : PFInfo) (s : State) : (raisePrimFault info s).xb = s.xb := rfl
@[simp] theorem raisePrimFault_rdata (info : PFInfo) (s : State) : (raisePrimFault info s).rdata = s.rdata := rfl
@[simp] theorem raisePrimFault_status (info : PFInfo) (s : State) : (raisePrimFault info s).status = { s.status with pf := true } := rfl
@[simp] theorem raisePrimFault_pfinfo (info : PFInfo) (s : State) : (raisePrimFault info s).pfinfo = info := rfl
@[simp] theorem raisePrimFault_buf (info : PFInfo) (s : State) : (raisePrimFault info s).buf = s.buf := rfl
@[simp] theorem raisePrimFault_cfg (info : PFInfo) (s : State) : (raisePrimFault info s).cfg = s.cfg := rfl
@[simp] theorem raisePrimFault_host (info : PFInfo) (s : State) : (raisePrimFault info s).host = s.host := rfl
@[simp] theorem raisePrimFault_answers (info : PFInfo) (s : State) : (raisePrimFault info s).answers = s.answers := rfl
@[simp] theorem raisePrimFault_trace (info : PFInfo) (s : State) : (raisePrimFault info s).trace = s.trace := rfl
@[simp] theorem raisePrimFault_free (info : PFInfo) (s : State) : (raisePrimFault info s).free = s.free + 1 := rfl

@[simp] theorem raiseProtocolError_st (p : Phase) (s : State) : (raiseProtocolError p s).st = .stop := rfl
@[simp] theorem raiseProtocolError_cmd (p : Phase) (s : State) : (raiseProtocolError p s).cmd = s.cmd := rfl
@[simp] theorem raiseProtocolError_len (p : Phase) (s : State) : (raiseProtocolError p s).len = s.len := rfl
@[simp] theorem raiseProtocolError_idx (p : Phase) (s : State) : (raiseProtocolError p s).idx = Config.freeIdx s.free := rfl
@[simp] theorem raiseProtocolError_td (p : Phase) (s : State) : (raiseProtocolError p s).td = s.td := rfl
@[simp] theorem raiseProtocolError_xb (p : Phase) (s : State) : (raiseProtocolError p s).xb = s.xb := rfl
@[simp] theorem raiseProtocolError_rdata (p : Phase) (s : State) : (raiseProtocolError p s).rdata = s.rdata := rfl
@[simp] theorem raiseProtocolError_status (p : Phase) (s : State) : (raiseProtocolError p s).status = { s.status with err := true, phase := p } := rfl
@[simp] theorem raiseProtocolError_pfinfo (p : Phase) (s : State) : (raiseProtocolError p s).pfinfo = s.pfinfo := rfl
@[simp] theorem raiseProtocolError_buf (p : Phase) (s : State) : (raiseProtocolError p s).buf = s.buf := rfl
@[simp] theorem raiseProtocolError_cfg (p : Phase) (s : State) : (raiseProtocolError p s).cfg = s.cfg := rfl
@[simp] theorem raiseProtocolError_host (p : Phase) (s : State) : (raiseProtocolError p s).host = s.host := rfl
@[simp] theorem raiseProtocolError_answers (p : Phase) (s : State) : (raiseProtocolError p s).answers = s.answers := rfl
@[simp] theorem raiseProtocolError_trace (p : Phase) (s : State) : (raiseProtocolError p s).trace = s.trace := rfl
@[simp] theorem raiseProtocolError_free (p : Phase) (s : State) : (raiseProtocolError p s).free = s.free + 1 := rfl

@[simp] theorem endCommand_st (s : State) : (endCommand s).st = .idle := rfl
@[simp] theorem endCommand_cmd (s : State) : (endCommand s).cmd = s.cmd := rfl
@[simp] theorem endCommand_len (s : State) : (endCommand s).len = s.len := rfl
@[simp] theorem endCommand_idx (s : State) : (endCommand s).idx = Config.freeIdx s.free := rfl
@[simp] theorem endCommand_td (s : State) : (endCommand s).td = s.td := rfl
@[simp] theorem endCommand_xb (s : State) : (endCommand s).xb = s.xb := rfl
@[simp] theorem endCommand_rdata (s : State) : (endCommand s).rdata = s.rdata := rfl
@[simp] theorem endCommand_status (s : State) : (endCommand s).status = { s.status with done := true } := rfl
@[simp] theorem endCommand_pfinfo (s : State) : (endCommand s).pfinfo = s.pfinfo := rfl
@[simp] theorem endCommand_buf (s : State) : (endCommand s).buf = s.buf := rfl
@[simp] theorem endCommand_cfg (s : State) : (endCommand s).cfg = s.cfg := rfl
@[simp] theorem endCommand_host (s : State) : (endCommand s).host = s.host := rfl
@[simp] theorem endCommand_answers (s : State) : (endCommand s).answers = s.answers := rfl
@[simp] theorem endCommand_trace (s : State) : (endCommand s).trace = s.trace := rfl
@[simp] theorem endCommand_free (s : State) : (endCommand s).free = s.free + 1 := rfl

@[simp] theorem abandonStart_st (info : PFInfo) (s : State) : (abandonStart info s).st = .idle := rfl
@[simp] theorem abandonStart_cmd (info : PFInfo) (s : State) : (abandonStart info s).cmd = s.cmd := rfl
@[simp] theorem abandonStart_len (info : PFInfo) (s : State) : (abandonStart info s).len = s.len := rfl
@[simp] theorem abandonStart_idx (info : PFInfo) (s : State) : (abandonStart info s).idx = Config.freeIdx s.free := rfl
@[simp] theorem abandonStart_td (info : PFInfo) (s : State) : (abandonStart info s).td = s.td := rfl
@[simp] theorem abandonStart_xb (info : PFInfo) (s : State) : (abandonStart info s).xb = s.xb := rfl
@[simp] theorem abandonStart_rdata (info : PFInfo) (s : State) : (abandonStart info s).rdata = s.rdata := rfl
@[simp] theorem abandonStart_status (info : PFInfo) (s : State) : (abandonStart info s).status = { s.status with pf := true, busOpen := false, done := true } := rfl
@[simp] theorem abandonStart_pfinfo (info : PFInfo) (s : State) : (abandonStart info s).pfinfo = info := rfl
@[simp] theorem abandonStart_buf (info : PFInfo) (s : State) : (abandonStart info s).buf = s.buf := rfl
@[simp] theorem abandonStart_cfg (info : PFInfo) (s : State) : (abandonStart info s).cfg = s.cfg := rfl
@[simp] theorem abandonStart_host (info : PFInfo) (s : State) : (abandonStart info s).host = s.host := rfl
@[simp] theorem abandonStart_answers (info : PFInfo) (s : State) : (abandonStart info s).answers = s.answers := rfl
@[simp] theorem abandonStart_trace (info : PFInfo) (s : State) : (abandonStart info s).trace = s.trace := rfl
@[simp] theorem abandonStart_free (info : PFInfo) (s : State) : (abandonStart info s).free = s.free + 1 := rfl

@[simp] theorem illegalCommand_st (s : State) : (illegalCommand s).st = s.st := rfl
@[simp] theorem illegalCommand_cmd (s : State) : (illegalCommand s).cmd = s.cmd := rfl
@[simp] theorem illegalCommand_len (s : State) : (illegalCommand s).len = s.len := rfl
@[simp] theorem illegalCommand_idx (s : State) : (illegalCommand s).idx = s.idx := rfl
@[simp] theorem illegalCommand_td (s : State) : (illegalCommand s).td = s.td := rfl
@[simp] theorem illegalCommand_xb (s : State) : (illegalCommand s).xb = s.xb := rfl
@[simp] theorem illegalCommand_rdata (s : State) : (illegalCommand s).rdata = s.rdata := rfl
@[simp] theorem illegalCommand_status (s : State) : (illegalCommand s).status = s.status.afterIllegal := rfl
@[simp] theorem illegalCommand_pfinfo (s : State) : (illegalCommand s).pfinfo = s.pfinfo := rfl
@[simp] theorem illegalCommand_buf (s : State) : (illegalCommand s).buf = s.buf := rfl
@[simp] theorem illegalCommand_cfg (s : State) : (illegalCommand s).cfg = s.cfg := rfl
@[simp] theorem illegalCommand_host (s : State) : (illegalCommand s).host = s.host := rfl
@[simp] theorem illegalCommand_answers (s : State) : (illegalCommand s).answers = s.answers := rfl
@[simp] theorem illegalCommand_trace (s : State) : (illegalCommand s).trace = s.trace := rfl
@[simp] theorem illegalCommand_free (s : State) : (illegalCommand s).free = s.free := rfl

@[simp] theorem latchCommand_st (i : Instr) (s : State) : (latchCommand i s).st = s.st := rfl
@[simp] theorem latchCommand_cmd (i : Instr) (s : State) : (latchCommand i s).cmd = encode i := rfl
@[simp] theorem latchCommand_len (i : Instr) (s : State) : (latchCommand i s).len = s.len := rfl
@[simp] theorem latchCommand_idx (i : Instr) (s : State) : (latchCommand i s).idx = s.idx := rfl
@[simp] theorem latchCommand_td (i : Instr) (s : State) : (latchCommand i s).td = s.td := rfl
@[simp] theorem latchCommand_xb (i : Instr) (s : State) : (latchCommand i s).xb = s.xb := rfl
@[simp] theorem latchCommand_rdata (i : Instr) (s : State) : (latchCommand i s).rdata = s.rdata := rfl
@[simp] theorem latchCommand_status (i : Instr) (s : State) : (latchCommand i s).status = s.status.cleared := rfl
@[simp] theorem latchCommand_pfinfo (i : Instr) (s : State) : (latchCommand i s).pfinfo = s.pfinfo := rfl
@[simp] theorem latchCommand_buf (i : Instr) (s : State) : (latchCommand i s).buf = s.buf := rfl
@[simp] theorem latchCommand_cfg (i : Instr) (s : State) : (latchCommand i s).cfg = s.cfg := rfl
@[simp] theorem latchCommand_host (i : Instr) (s : State) : (latchCommand i s).host = s.host := rfl
@[simp] theorem latchCommand_answers (i : Instr) (s : State) : (latchCommand i s).answers = s.answers := rfl
@[simp] theorem latchCommand_trace (i : Instr) (s : State) : (latchCommand i s).trace = s.trace := rfl
@[simp] theorem latchCommand_free (i : Instr) (s : State) : (latchCommand i s).free = s.free := rfl

@[simp] theorem openTransaction_st (d : TD) (s : State) : (openTransaction d s).st = .start := rfl
@[simp] theorem openTransaction_cmd (d : TD) (s : State) : (openTransaction d s).cmd = s.cmd := rfl
@[simp] theorem openTransaction_len (d : TD) (s : State) : (openTransaction d s).len = s.len := rfl
@[simp] theorem openTransaction_idx (d : TD) (s : State) : (openTransaction d s).idx = Config.freeIdx s.free := rfl
@[simp] theorem openTransaction_td (d : TD) (s : State) : (openTransaction d s).td = d := rfl
@[simp] theorem openTransaction_xb (d : TD) (s : State) : (openTransaction d s).xb = s.xb := rfl
@[simp] theorem openTransaction_rdata (d : TD) (s : State) : (openTransaction d s).rdata = s.rdata := rfl
@[simp] theorem openTransaction_status (d : TD) (s : State) : (openTransaction d s).status = s.status := rfl
@[simp] theorem openTransaction_pfinfo (d : TD) (s : State) : (openTransaction d s).pfinfo = s.pfinfo := rfl
@[simp] theorem openTransaction_buf (d : TD) (s : State) : (openTransaction d s).buf = s.buf := rfl
@[simp] theorem openTransaction_cfg (d : TD) (s : State) : (openTransaction d s).cfg = s.cfg := rfl
@[simp] theorem openTransaction_host (d : TD) (s : State) : (openTransaction d s).host = s.host := rfl
@[simp] theorem openTransaction_answers (d : TD) (s : State) : (openTransaction d s).answers = s.answers := rfl
@[simp] theorem openTransaction_trace (d : TD) (s : State) : (openTransaction d s).trace = s.trace := rfl
@[simp] theorem openTransaction_free (d : TD) (s : State) : (openTransaction d s).free = s.free + 1 := rfl

@[simp] theorem secondTransaction_st (s : State) : (secondTransaction s).st = .start := rfl
@[simp] theorem secondTransaction_cmd (s : State) : (secondTransaction s).cmd = s.cmd := rfl
@[simp] theorem secondTransaction_len (s : State) : (secondTransaction s).len = s.len := rfl
@[simp] theorem secondTransaction_idx (s : State) : (secondTransaction s).idx = Config.freeIdx s.free := rfl
@[simp] theorem secondTransaction_td (s : State) : (secondTransaction s).td = { s.td with arg := s.cfg.x24OutSub } := rfl
@[simp] theorem secondTransaction_xb (s : State) : (secondTransaction s).xb = wireBytes s.cfg.x24Lanes (immField s.cmd) := rfl
@[simp] theorem secondTransaction_rdata (s : State) : (secondTransaction s).rdata = s.rdata := rfl
@[simp] theorem secondTransaction_status (s : State) : (secondTransaction s).status = { s.status with useq := true } := rfl
@[simp] theorem secondTransaction_pfinfo (s : State) : (secondTransaction s).pfinfo = s.pfinfo := rfl
@[simp] theorem secondTransaction_buf (s : State) : (secondTransaction s).buf = s.buf := rfl
@[simp] theorem secondTransaction_cfg (s : State) : (secondTransaction s).cfg = s.cfg := rfl
@[simp] theorem secondTransaction_host (s : State) : (secondTransaction s).host = s.host := rfl
@[simp] theorem secondTransaction_answers (s : State) : (secondTransaction s).answers = s.answers := rfl
@[simp] theorem secondTransaction_trace (s : State) : (secondTransaction s).trace = s.trace := rfl
@[simp] theorem secondTransaction_free (s : State) : (secondTransaction s).free = s.free + 1 := rfl

@[simp] theorem Status.cleared_done (x : Status) : x.cleared.done = false := rfl
@[simp] theorem Status.cleared_err (x : Status) : x.cleared.err = false := rfl
@[simp] theorem Status.cleared_pf (x : Status) : x.cleared.pf = false := rfl
@[simp] theorem Status.cleared_ill (x : Status) : x.cleared.ill = false := rfl
@[simp] theorem Status.cleared_phase (x : Status) : x.cleared.phase = .none := rfl
@[simp] theorem Status.cleared_busOpen (x : Status) : x.cleared.busOpen = x.busOpen := rfl
@[simp] theorem Status.cleared_useq (x : Status) : x.cleared.useq = false := rfl
@[simp] theorem Status.cleared_ack (x : Status) : x.cleared.ack = x.ack := rfl

@[simp] theorem Status.afterIllegal_done (x : Status) : x.afterIllegal.done = true := rfl
@[simp] theorem Status.afterIllegal_err (x : Status) : x.afterIllegal.err = false := rfl
@[simp] theorem Status.afterIllegal_pf (x : Status) : x.afterIllegal.pf = false := rfl
@[simp] theorem Status.afterIllegal_ill (x : Status) : x.afterIllegal.ill = true := rfl
@[simp] theorem Status.afterIllegal_phase (x : Status) : x.afterIllegal.phase = .none := rfl
@[simp] theorem Status.afterIllegal_busOpen (x : Status) : x.afterIllegal.busOpen = x.busOpen := rfl
@[simp] theorem Status.afterIllegal_useq (x : Status) : x.afterIllegal.useq = false := rfl
@[simp] theorem Status.afterIllegal_ack (x : Status) : x.afterIllegal.ack = x.ack := rfl

end Sys2Proof.Machine
end

