-- ==== Sys2Proof/Laws/Ops.lean ====
section
/-! SUPPORT. What each shared operation can do, said once: issue, the reads and writes of BUF and XB, a response, and from these
what `exec` answers for every command. -/

namespace Sys2Proof.Machine

/-- Every command's word decodes to the command (30_encoding.md R104). -/
theorem decode_encode (i : Instr) : decode (encode i) = .ok i := by
  cases i with
  | poll bus addr => exact Laws.DecodeEncode.poll bus addr
  | wrb f bus addr data => exact Laws.DecodeEncode.wrb f bus addr data
  | rdb bus addr => exact Laws.DecodeEncode.rdb bus addr
  | wrm f bus addr sub => exact Laws.DecodeEncode.wrm f bus addr sub
  | rdm bus addr sub => exact Laws.DecodeEncode.rdm bus addr sub
  | swsel ch => exact Laws.DecodeEncode.swsel ch
  | swdes => exact Laws.DecodeEncode.swdes
  | x24set value => exact Laws.DecodeEncode.x24set value
  | x8drv data => exact Laws.DecodeEncode.x8drv data
  | x8sns => exact Laws.DecodeEncode.x8sns

theorem issue_legal (i : Instr) (f : State → State) (s : State) : issue i true f s = .next (f (latchCommand i s)) := rfl

theorem issue_illegal (i : Instr) (f : State → State) (s : State) : issue i false f s = .next (illegalCommand s) := rfl

/-- BufRead answers a byte exactly for an index in range that was written (20_memory.md R74). -/
theorem bufRead_next_iff (s : State) (i : Nat) (v : Byte) :
    bufRead s i = .next v ↔ i < s.cfg.maxlen ∧ Memory.read s.buf i = some v := by
  unfold bufRead
  split
  · rename_i h
    split <;> simp_all
  · simp_all

/-- BufWrite in range writes that one byte. -/
theorem bufWrite_of_lt (s : State) (i : Nat) (v : Byte) (h : i < s.cfg.maxlen) :
    bufWrite s i v = .next { s with buf := Memory.write s.buf i v } := by
  simp [bufWrite, h]

theorem bufWrite_of_ge (s : State) (i : Nat) (v : Byte) (h : ¬ i < s.cfg.maxlen) :
    bufWrite s i v = .fault (.bufOutOfRange i) := by
  simp [bufWrite, h]

theorem onOk_ok (v : Half) (s : State) (k : Half → Result State) : onOk (.ok v) s k = k v := rfl

theorem onOk_fault (info : PFInfo) (s : State) (k : Half → Result State) :
    onOk (.fault info) s k = .next (raisePrimFault info s) := rfl

theorem whenAnswered_nil (s : State) (k : Response → Result State) (h : s.answers = []) : whenAnswered s k = .next s := by
  simp [whenAnswered, h]

theorem whenAnswered_cons (s : State) (k : Response → Result State) (r : Response) (rest : List Response)
    (h : s.answers = r :: rest) : whenAnswered s k = k r := by
  simp [whenAnswered, h]

/-- A command that is not well formed has the illegal word's effect (30_encoding.md R107, R108). -/
theorem exec_illFormed (i : Instr) (s : State) (h : i.wellFormed s.cfg s.len = false) :
    exec i s = .next (illegalCommand s) := by
  cases i <;>
    simp_all [Instr.wellFormed, Instr.busInRange, Instr.lenInRange, Instr.bus?, Instr.usesLen, exec, execPoll, execWrb, execRdb,
      execWrm, execRdm, issue, busLegal, lenLegal]

/-- Every command answers a next state: exec never stops. -/
theorem exec_next (i : Instr) (s : State) : ∃ t, exec i s = .next t := by
  cases i <;>
    simp only [exec, execPoll, execWrb, execRdb, execWrm, execRdm, execSwsel, execSwdes, execX24set, execX8drv, execX8sns, issue] <;>
    split <;> exact ⟨_, rfl⟩

end Sys2Proof.Machine
end

