-- ==== Sys2Proof/Laws/Sequencer.lean ====
section
/-! SUPPORT. Everything a response can do, said once, case by case as the rows of 41_sequencer_fsm.md R181: a proof about primitive steps
takes `Move` apart instead of unfolding `respond`. -/

namespace Sys2Proof.Machine

/-- The states and transactions in which an unmet acknowledge raises ProtocolError of this phase (60_exceptions.md R263). -/
def NackRaises (s : State) (p : Phase) : Prop :=
  (p = .addr ∧ s.st = .addr ∧ (s.td.kind = .wrb ∨ s.td.kind = .wrm ∨ s.td.kind = .rdm)) ∨
  (p = .readAddr ∧ s.st = .addr ∧ s.td.kind = .rdb) ∨
  (p = .data ∧ s.st = .data ∧ s.td.flag = true) ∨
  (p = .subaddr ∧ s.st = .sub) ∨
  (p = .data ∧ s.st = .wdata ∧ (isLast s.idx s.td.n = false ∨ s.td.flag = true)) ∨
  (p = .readAddr ∧ s.st = .addrR)

/-- Where a byte read goes (41_sequencer_fsm.md R178). -/
def Stores (v : Byte) (s t : State) : Prop :=
  (s.td.kind = .rdb ∧ t = { s with rdata := v }) ∨
  (s.td.kind ≠ .rdb ∧ s.idx.toNat < s.cfg.maxlen ∧ t = { s with buf := Memory.write s.buf s.idx.toNat v })

/-- The moves of the sequencer, the request having been made and answered. -/
inductive Move : Response → State → State → Prop where
  | startOk (v : Half) (s : State) (h : s.st = .start) : Move (.ok v) s (goto .addr (setOpen true s))
  | startFault (info : PFInfo) (s : State) (h : s.st = .start) (hc : s.cfg.stopAfterStartFault = true) :
      Move (.fault info) s (raisePrimFault info (setOpen true s))
  | startAbandoned (info : PFInfo) (s : State) (h : s.st = .start) (hc : s.cfg.stopAfterStartFault = false) :
      Move (.fault info) s (abandonStart info (setOpen true s))
  | fault (info : PFInfo) (s : State)
      (h : s.st = .addr ∨ s.st = .data ∨ s.st = .sub ∨ s.st = .wdata ∨ s.st = .restart ∨ s.st = .addrR ∨ s.st = .read) :
      Move (.fault info) s (raisePrimFault info s)
  | nack (v : Half) (s : State) (p : Phase) (ha : ackOf v = false) (h : NackRaises s p) :
      Move (.ok v) s (raiseProtocolError p s)
  | probed (v : Half) (s : State) (h : s.st = .addr) (hk : s.td.kind = .poll) :
      Move (.ok v) s (goto .stop { s with status := { s.status with ack := ackOf v } })
  | addrToData (v : Half) (s : State) (h : s.st = .addr) (hk : s.td.kind = .wrb) (ha : ackOf v = true) :
      Move (.ok v) s (goto .data s)
  | addrToRead (v : Half) (s : State) (h : s.st = .addr) (hk : s.td.kind = .rdb) (ha : ackOf v = true) :
      Move (.ok v) s (enterLoop .read s)
  | addrToSub (v : Half) (s : State) (h : s.st = .addr) (hk : s.td.kind = .wrm ∨ s.td.kind = .rdm) (ha : ackOf v = true) :
      Move (.ok v) s (goto .sub s)
  | dataSent (v : Half) (s : State) (h : s.st = .data) (ha : ackOf v = true ∨ s.td.flag = false) :
      Move (.ok v) s (goto .stop s)
  | subToRestart (v : Half) (s : State) (h : s.st = .sub) (hk : s.td.kind = .rdm) (ha : ackOf v = true) :
      Move (.ok v) s (goto .restart s)
  | subToStop (v : Half) (s : State) (h : s.st = .sub) (hk : s.td.kind = .wrm) (ha : ackOf v = true) (hn : s.td.n = 0) :
      Move (.ok v) s (goto .stop s)
  | subToWdata (v : Half) (s : State) (h : s.st = .sub) (hk : s.td.kind = .wrm) (ha : ackOf v = true) (hn : s.td.n ≠ 0) :
      Move (.ok v) s (enterLoop .wdata s)
  | lastSent (v : Half) (s : State) (h : s.st = .wdata) (hl : isLast s.idx s.td.n = true)
      (ha : ackOf v = true ∨ s.td.flag = false) : Move (.ok v) s (goto .stop s)
  | byteSent (v : Half) (s : State) (h : s.st = .wdata) (hl : isLast s.idx s.td.n = false) (ha : ackOf v = true) :
      Move (.ok v) s (nextIndex s)
  | restarted (v : Half) (s : State) (h : s.st = .restart) : Move (.ok v) s (goto .addrR s)
  | addrRToStop (v : Half) (s : State) (h : s.st = .addrR) (ha : ackOf v = true) (hn : s.td.n = 0) :
      Move (.ok v) s (goto .stop s)
  | addrRToRead (v : Half) (s : State) (h : s.st = .addrR) (ha : ackOf v = true) (hn : s.td.n ≠ 0) :
      Move (.ok v) s (enterLoop .read s)
  | lastRead (v : Half) (s t : State) (h : s.st = .read) (hs : Stores (dataOf v) s t) (hl : isLast s.idx s.td.n = true) :
      Move (.ok v) s (goto .stop t)
  | byteRead (v : Half) (s t : State) (h : s.st = .read) (hs : Stores (dataOf v) s t) (hl : isLast s.idx s.td.n = false) :
      Move (.ok v) s (nextIndex t)
  | again (r : Response) (s : State) (h : s.st = .stop) (hc : chains (recordIfFault r (setOpen false s)) = true) :
      Move r s (secondTransaction (recordIfFault r (setOpen false s)))
  | stopped (r : Response) (s : State) (h : s.st = .stop) (hc : chains (recordIfFault r (setOpen false s)) = false) :
      Move r s (endCommand (recordIfFault r (setOpen false s)))
  | selected (r : Response) (s : State) (h : s.st = .swsel) : Move r s (endCommand (recordIfFault r s))

/-- What storeRead answers. -/
theorem storeRead_next {v : Byte} {s t : State} (h : storeRead v s = .next t) : Stores v s t := by
  unfold storeRead bufWrite at h
  split at h
  · cases h
    exact .inl ⟨‹_›, rfl⟩
  · split at h
    · cases h
      exact .inr ⟨‹_›, ‹_›, rfl⟩
    · cases h

theorem afterStart_move {r : Response} {s t : State} (hs : s.st = .start) (h : afterStart r s = .next t) : Move r s t := by
  cases r with
  | ok v =>
    simp only [afterStart, Host.Outcome.next.injEq] at h
    exact h ▸ .startOk v s hs
  | fault info =>
    simp only [afterStart] at h
    split at h <;> cases h
    · exact .startFault info s hs ‹_›
    · exact .startAbandoned info s hs (by simp_all)

theorem afterAddr_move {v : Half} {s t : State} (hs : s.st = .addr) (h : afterAddr (.ok v) s = .next t) :
    Move (.ok v) s t := by
  rw [afterAddr, onOk_ok] at h
  cases hk : s.td.kind <;> rw [hk] at h <;> dsimp only at h
  case poll => cases h; exact .probed v s hs hk
  all_goals split at h <;> cases h <;> rename_i ha
  · exact .addrToData v s hs hk ha
  · exact .nack v s .addr (by simpa using ha) (by simp [NackRaises, hs, hk])
  · exact .addrToRead v s hs hk ha
  · exact .nack v s .readAddr (by simpa using ha) (by simp [NackRaises, hs, hk])
  · exact .addrToSub v s hs (.inl hk) ha
  · exact .nack v s .addr (by simpa using ha) (by simp [NackRaises, hs, hk])
  · exact .addrToSub v s hs (.inr hk) ha
  · exact .nack v s .addr (by simpa using ha) (by simp [NackRaises, hs, hk])

theorem afterData_move {v : Half} {s t : State} (hs : s.st = .data) (h : afterData (.ok v) s = .next t) :
    Move (.ok v) s t := by
  rw [afterData, onOk_ok] at h
  split at h <;> cases h <;> rename_i hc
  · simp only [Bool.and_eq_true, Bool.not_eq_true'] at hc
    exact .nack v s .data hc.1 (by simp [NackRaises, hs, hc.2])
  · exact .dataSent v s hs (by cases hv : ackOf v <;> simp_all)

theorem afterSub_move {v : Half} {s t : State} (hs : s.st = .sub) (h : afterSub (.ok v) s = .next t) :
    Move (.ok v) s t := by
  rw [afterSub, onOk_ok] at h
  split at h <;> rename_i hc
  · cases h
    exact .nack v s .subaddr (by simpa using hc) (by simp [NackRaises, hs])
  · have ha : ackOf v = true := by simpa using hc
    cases hk : s.td.kind <;> rw [hk] at h <;> dsimp only at h
    case wrm =>
      split at h <;> cases h
      · exact .subToStop v s hs hk ha ‹_›
      · exact .subToWdata v s hs hk ha ‹_›
    case rdm => cases h; exact .subToRestart v s hs hk ha
    all_goals cases h

theorem afterWdata_move {v : Half} {s t : State} (hs : s.st = .wdata) (h : afterWdata (.ok v) s = .next t) :
    Move (.ok v) s t := by
  rw [afterWdata, onOk_ok] at h
  split at h <;> rename_i hc
  · cases h
    simp only [Bool.and_eq_true, Bool.not_eq_true', Bool.or_eq_true] at hc
    exact .nack v s .data hc.1 (by simpa [NackRaises, hs] using hc.2)
  · split at h <;> cases h <;> rename_i hl
    · exact .lastSent v s hs hl (by cases hv : ackOf v <;> simp_all)
    · exact .byteSent v s hs (by simpa using hl) (by cases hv : ackOf v <;> simp_all)

theorem afterAddrR_move {v : Half} {s t : State} (hs : s.st = .addrR) (h : afterAddrR (.ok v) s = .next t) :
    Move (.ok v) s t := by
  rw [afterAddrR, onOk_ok] at h
  split at h <;> rename_i hc
  · cases h
    exact .nack v s .readAddr (by simpa using hc) (by simp [NackRaises, hs])
  · have ha : ackOf v = true := by simpa using hc
    split at h <;> cases h
    · exact .addrRToStop v s hs ha ‹_›
    · exact .addrRToRead v s hs ha ‹_›

theorem afterRead_move {v : Half} {s t : State} (hs : s.st = .read) (h : afterRead (.ok v) s = .next t) :
    Move (.ok v) s t := by
  rw [afterRead, onOk_ok] at h
  cases hx : storeRead (dataOf v) s with
  | next u =>
    rw [hx] at h
    dsimp only at h
    split at h <;> cases h <;> rename_i hl
    · exact .lastRead v s u hs (storeRead_next hx) hl
    · exact .byteRead v s u hs (storeRead_next hx) (by simpa using hl)
  | fault e => rw [hx] at h; cases h
  | refused x => rw [hx] at h; cases h

theorem afterStop_move {r : Response} {s t : State} (hs : s.st = .stop) (h : afterStop r s = .next t) : Move r s t := by
  rw [afterStop] at h
  split at h <;> cases h <;> rename_i hc
  · exact .again r s hs hc
  · exact .stopped r s hs (by simpa using hc)

/-- Every answer of `respond` is one of the moves. -/
theorem respond_move {r : Response} {s t : State} (h : respond r s = .next t) : Move r s t := by
  cases hs : s.st <;> simp only [respond, hs] at h
  case idle => cases h
  case start => exact afterStart_move hs h
  case stop => exact afterStop_move hs h
  case swsel => cases h; exact .selected r s hs
  all_goals cases r with
    | fault info => cases h; exact .fault info s (by simp [hs])
    | ok v => ?_
  · exact afterAddr_move hs h
  · exact afterData_move hs h
  · exact afterSub_move hs h
  · exact afterWdata_move hs h
  · cases h; exact .restarted v s hs
  · exact afterAddrR_move hs h
  · exact afterRead_move hs h

end Sys2Proof.Machine
end

