-- ==== Sys2Proof/Laws/Step.lean ====
section
/-! SUPPORT. What one step can do, said once, and how runs compose. -/

namespace Sys2Proof.Machine

theorem busy_iff (s : State) : busy s = true ↔ s.st ≠ .idle := by
  simp [busy]

theorem step_of_busy (s : State) (h : s.st ≠ .idle) : step s = primitiveStep s := by
  simp [step, (busy_iff s).2 h]

/-- The block is idle and the host has nothing more to do: nothing happens (70_reset_and_hazards.md R302). -/
theorem step_idle_nil (s : State) (h : s.st = .idle) (hh : s.host = []) : step s = .next s := by
  simp [step, busy, h, fetch, hh]

/-- The block is idle: the host's next operation is taken. -/
theorem step_idle_cons (s : State) (op : HostOp) (rest : List HostOp) (h : s.st = .idle) (hh : s.host = op :: rest) :
    step s = hostStep op { s with host := rest } := by
  simp [step, busy, h, fetch, hh]

/-- The environment does not answer: the block stays as it is (40_primitive_port.md R153). -/
theorem step_unanswered (s : State) (h : s.st ≠ .idle) (ha : s.answers = []) : step s = .next s := by
  rw [step_of_busy s h, primitiveStep, whenAnswered_nil s _ ha]

/-- The environment answers: the request the state makes, then the move on the response. -/
theorem step_answered (s : State) (q : Request) (r : Response) (rest : List Response) (h : s.st ≠ .idle)
    (ha : s.answers = r :: rest) (hq : request s = .next q) : step s = respond r (exchange q r s) := by
  rw [step_of_busy s h, primitiveStep, whenAnswered_cons s _ r rest ha, hq]

/-- Everything a step can do when it answers a next state. -/
theorem step_cases {s t : State} (h : step s = .next t) :
    (s.st = .idle ∧ s.host = [] ∧ t = s) ∨
    (∃ op rest, s.st = .idle ∧ s.host = op :: rest ∧ hostStep op { s with host := rest } = .next t) ∨
    (s.st ≠ .idle ∧ s.answers = [] ∧ t = s) ∨
    (∃ q r rest, s.st ≠ .idle ∧ s.answers = r :: rest ∧ request s = .next q ∧ respond r (exchange q r s) = .next t) := by
  by_cases hi : s.st = .idle
  · cases hh : s.host with
    | nil =>
      rw [step_idle_nil s hi hh] at h
      cases h
      exact .inl ⟨hi, rfl, rfl⟩
    | cons op rest =>
      rw [step_idle_cons s op rest hi hh] at h
      exact .inr (.inl ⟨op, rest, hi, rfl, h⟩)
  · cases ha : s.answers with
    | nil =>
      rw [step_unanswered s hi ha] at h
      cases h
      exact .inr (.inr (.inl ⟨hi, rfl, rfl⟩))
    | cons r rest =>
      cases hq : request s with
      | next q =>
        rw [step_answered s q r rest hi ha hq] at h
        exact .inr (.inr (.inr ⟨q, r, rest, hi, rfl, rfl, h⟩))
      | fault f =>
        rw [step_of_busy s hi, primitiveStep, whenAnswered_cons s _ r rest ha, hq] at h
        cases h
      | refused x =>
        rw [step_of_busy s hi, primitiveStep, whenAnswered_cons s _ r rest ha, hq] at h
        cases h

/-- What a step does while BUSY, the environment having an answer to give: one request, one response, one move. -/
theorem step_move {s t : State} (hb : s.st ≠ .idle) (ha : s.answers ≠ []) (h : step s = .next t) :
    ∃ q r rest, s.answers = r :: rest ∧ request s = .next q ∧ Move r (exchange q r s) t := by
  obtain ⟨hi, _⟩ | ⟨_, _, hi, _⟩ | ⟨_, hn, _⟩ | ⟨q, r, rest, _, hr, hq, hm⟩ := step_cases h
  · exact absurd hi hb
  · exact absurd hi hb
  · exact absurd hn ha
  · exact ⟨q, r, rest, hr, hq, respond_move hm⟩

/-- The bus a request names (10_state.md R36; 41_sequencer_fsm.md R180). -/
theorem request_bus {s : State} {q : Request} (h : request s = .next q) :
    q.bus = if s.st = .swsel then s.cfg.swBus else s.td.bus := by
  cases hs : s.st <;> simp only [request, hs] at h
  case idle => cases h
  case wdata =>
    split at h <;> cases h
    rfl
  case swsel =>
    split at h <;> cases h
    rfl
  all_goals cases h; rfl

@[simp] theorem oks_nil : oks [] = [] := rfl

@[simp] theorem oks_cons (v : Half) (vals : List Half) : oks (v :: vals) = .ok v :: oks vals := rfl

@[simp] theorem oks_append (vals more : List Half) : oks (vals ++ more) = oks vals ++ oks more := List.map_append

@[simp] theorem exchanges_nil (bus : Byte) (prims : List Prim) : exchanges bus prims [] = [] := List.zipWith_nil_right

@[simp] theorem exchanges_cons (bus : Byte) (p : Prim) (prims : List Prim) (r : Response) (responses : List Response) :
    exchanges bus (p :: prims) (r :: responses) = ⟨⟨bus, p⟩, r⟩ :: exchanges bus prims responses := rfl

@[simp] theorem Response.faulted_ok (v : Half) : (Response.ok v).faulted = false := rfl

@[simp] theorem Response.faulted_fault (info : PFInfo) : (Response.fault info).faulted = true := rfl

@[simp] theorem Response.infoAfter_ok (v : Half) (old : PFInfo) : (Response.ok v).infoAfter old = old := rfl

@[simp] theorem Response.infoAfter_fault (info old : PFInfo) : (Response.fault info).infoAfter old = info := rfl

theorem runs_zero (s : State) : Runs 0 s s := rfl

/-- One step, then `k` more. -/
theorem runs_succ {k : Nat} {s t u : State} (h : step s = .next t) (hr : Runs k t u) : Runs (k + 1) s u :=
  ⟨t, h, hr⟩

/-- Runs compose. -/
theorem runs_add {j k : Nat} {s t u : State} (h : Runs j s t) (hr : Runs k t u) : Runs (j + k) s u := by
  induction j generalizing s with
  | zero =>
    cases h
    simpa using hr
  | succ j ih =>
    obtain ⟨m, hm, hj⟩ := h
    rw [show j + 1 + k = j + k + 1 by omega]
    exact runs_succ hm (ih hj)

/-- `Runs` is the host's `run`. -/
theorem runs_iff_run (k : Nat) (s t : State) : Runs k s t ↔ Host.Core.run Sys2Proof.core k s = .next t := by
  induction k generalizing s with
  | zero =>
    constructor
    · rintro rfl
      rfl
    · intro h
      cases h
      rfl
  | succ k ih =>
    cases hs : step s with
    | next m =>
      have hm : Sys2Proof.core.step s = .next m := hs
      simp only [Runs, hs, Host.Core.run, hm, Host.Outcome.next.injEq, exists_eq_left', ih]
    | fault f =>
      have hm : Sys2Proof.core.step s = .fault f := hs
      simp [Runs, hs, Host.Core.run, hm]
    | refused x =>
      have hm : Sys2Proof.core.step s = .refused x := hs
      simp [Runs, hs, Host.Core.run, hm]

end Sys2Proof.Machine
end

