-- ==== Sys2Proof/Machine/Assembler.lean ====
section
/-! DEFINITION. The directives of the assembler and the source's operation names as the host operations they stand for
(30_encoding.md R111, R112). Notation only: no step reads this file. -/

namespace Sys2Proof.Machine

/-- The host operation that issues a command. -/
def asmCommand (i : Instr) : HostOp := .issue (encode i)

/-- The directive `LEN n`: `SetLen(n)` (30_encoding.md R111). -/
def asmLen (n : Half) : List HostOp := [.setLen n]

/-- `HostBufWrite(i, b0); HostBufWrite(i + 1, b1); ...`. -/
def asmBytes (i : Nat) (bytes : List Byte) : List HostOp :=
  match bytes with
  | [] => []
  | b :: rest => .bufWrite (BitVec.ofNat 16 i) b :: asmBytes (i + 1) rest

/-- The directive `BUF b0, b1, ...`: the bytes from index 0, and LEN set to their number (30_encoding.md R111). -/
def asmBuf (bytes : List Byte) : List HostOp :=
  asmBytes 0 bytes ++ [.setLen (BitVec.ofNat 16 bytes.length)]

/-- `writeMany(b, a, s, buf, ackLast)` (30_encoding.md R112). -/
def asmWriteMany (bus addr sub : Byte) (buf : List Byte) (ackLast : Bool := true) : List HostOp :=
  asmBuf buf ++ [asmCommand (.wrm ackLast bus addr sub)]

/-- `readMany(b, a, s, buffer of n)` (30_encoding.md R112). -/
def asmReadMany (bus addr sub : Byte) (n : Half) : List HostOp :=
  asmLen n ++ [asmCommand (.rdm bus addr sub)]

/-- `writeByte(b, a, d, ackRequired)` (30_encoding.md R112). -/
def asmWriteByte (bus addr data : Byte) (ackRequired : Bool := true) : List HostOp :=
  [asmCommand (.wrb ackRequired bus addr data)]

end Sys2Proof.Machine
end

