-- ==== Sys2Proof/Tests/Slice0.lean ====
section
/-! SUPPORT. The model's own tests. Expected values come from spec/: the encodings of 30_encoding.md, the vectors of
95_test_vectors.md and the rules each test names, never from the model. The witnesses show, for every statement with hypotheses,
states and operands that meet all of them. -/

namespace Sys2Proof.Machine

/-! ## Well-formedness: one ill-formed command for each check, on the instance with NBUS = 2 and MAXLEN = 16 -/

theorem test_wellFormed_refuses_bus_above_nbus :
    (Instr.poll 2 0x44).wellFormed Config.built 0 = false ∧ (Instr.wrb true 2 0x7c 0xA5).wellFormed Config.built 0 = false ∧
    (Instr.rdb 255 0x7c).wellFormed Config.built 0 = false ∧ (Instr.wrm true 2 0x44 0x84).wellFormed Config.built 0 = false ∧
    (Instr.rdm 2 0x44 0x84).wellFormed Config.built 0 = false := by decide

theorem test_wellFormed_refuses_len_above_maxlen :
    (Instr.wrm true 1 0x44 0x84).wellFormed Config.built 17 = false ∧
    (Instr.rdm 1 0x44 0x84).wellFormed Config.built 17 = false := by decide

theorem test_wellFormed_admits_the_boundary :
    (Instr.poll 1 0x44).wellFormed Config.built 17 = true ∧ (Instr.wrm false 1 0x44 0x84).wellFormed Config.built 16 = true ∧
    (Instr.rdm 1 0x44 0x84).wellFormed Config.built 16 = true ∧ (Instr.swsel 7).wellFormed Config.built 65535 = true := by
  decide

theorem test_config_ranges :
    Config.built.wf = true ∧ { Config.built with nbus := 257 }.wf = false ∧ { Config.built with maxlen := 0 }.wf = false ∧
    { Config.built with swBus := 2 }.wf = false ∧ { Config.built with x24Lanes := ⟨0, 1, 1⟩ }.wf = false := by decide

/-! ## Decoding: words written out bit by bit from 30_encoding.md R101, R102, R104 -/

/-- `oooo f000 bbbbbbbb aaaaaaaa dddddddd` with oooo = 0001. -/
theorem test_decode_poll : decode 0b00010000000000011110100000000000 = .ok (.poll 1 0xe8) := by decide

/-- oooo = 0010, f = 1. -/
theorem test_decode_wrb : decode 0b00101000000000000111110010100101 = .ok (.wrb true 0 0x7c 0xA5) := by decide

/-- oooo = 0011. -/
theorem test_decode_rdb : decode 0b00110000111111110111110000000000 = .ok (.rdb 0xff 0x7c) := by decide

/-- oooo = 0100, f = 0. -/
theorem test_decode_wrm : decode 0b01000000000000010100010010000100 = .ok (.wrm false 1 0x44 0x84) := by decide

/-- oooo = 0101. -/
theorem test_decode_rdm : decode 0b01010000000000010100010010000100 = .ok (.rdm 1 0x44 0x84) := by decide

/-- `oooo 0000 vvvvvvvv vvvvvvvv vvvvvvvv` with oooo = 1000 and the channel in bits 2:0. -/
theorem test_decode_swsel : decode 0b10000000000000000000000000000111 = .ok (.swsel 7) := by decide

/-- oooo = 1001. -/
theorem test_decode_swdes : decode 0b10010000000000000000000000000000 = .ok .swdes := by decide

/-- oooo = 1010. -/
theorem test_decode_x24set : decode 0b10100000000100100011010001010110 = .ok (.x24set 0x123456) := by decide

/-- oooo = 1011. -/
theorem test_decode_x8drv : decode 0b10110000000000000000000011110000 = .ok (.x8drv 0xF0) := by decide

/-- oooo = 1100. -/
theorem test_decode_x8sns : decode 0b11000000000000000000000000000000 = .ok .x8sns := by decide

/-- The illegal words of 95_test_vectors.md and one for each further line of 30_encoding.md R107. -/
theorem test_decode_rejects_by_name :
    decode 0x00000000 = .illegal .reservedOpcode ∧ decode 0xF0000000 = .illegal .reservedOpcode ∧
    decode 0x14004400 = .illegal .reservedBits ∧ decode 0xA8123456 = .illegal .reservedBits ∧
    decode 0x18004400 = .illegal .flagNotZero ∧ decode 0x58014484 = .illegal .flagNotZero ∧
    decode 0x10004401 = .illegal .argNotZero ∧ decode 0x30007C80 = .illegal .argNotZero ∧
    decode 0x80000008 = .illegal .immNotZero ∧ decode 0x90000001 = .illegal .immNotZero ∧
    decode 0xB0000100 = .illegal .immNotZero ∧ decode 0xC0800000 = .illegal .immNotZero := by decide

theorem test_decodeAt_rejects_by_name :
    decodeAt Config.built 0 0x10024400 = .illegal .busOutOfRange ∧
    decodeAt Config.built 17 0x48014484 = .illegal .lenAboveMax := by decide

theorem test_decodeTableWord :
    decodeTableWord 32 0x48014484 = some (.wrm true 1 0x44 0x84) ∧ decodeTableWord 32 0x60000000 = none := by decide

/-- The program of 30_encoding.md R111: `BUF` writes the bytes from index 0 and sets LEN. -/
theorem test_asm_writeMany :
    asmWriteMany 0 0x44 0x84 [0x56, 0x34] =
      [.bufWrite 0 0x56, .bufWrite 1 0x34, .setLen 2, .issue 0x48004484] := by decide

/-! ## Single steps -/

/-- An idle block with LEN = 2, `BUF[0]` = 0xAA and `BUF[1]` = 0xBB. -/
def testIdle : State := { State.reset with len := 2, buf := [(0, 0xAA), (1, 0xBB)] }

/-- The block in state `st` of transaction `td` of command `cmd`, with these answers to come. -/
def testIn (st : SeqState) (cmd : Instr) (td : TD) (idx : Half) (answers : List Response) : State :=
  { testIdle with
    st := st, cmd := encode cmd, td := td, idx := idx, answers := answers
    status := { Status.reset with busOpen := st.inTransaction } }

/-- Whether an outcome is a next state with property `p`. -/
def testNext (r : Host.Outcome State Fault Refusal) (p : State → Bool) : Bool :=
  match r with
  | .next t => p t
  | .fault _ => false
  | .refused _ => false

def testPoll (st : SeqState) : List Response → State := testIn st (.poll 0 0x44) ⟨.poll, 0, 0x44, 0, false, 0, .buf⟩ 0
def testWrb (f : Bool) (st : SeqState) : List Response → State :=
  testIn st (.wrb f 0 0x7c 0xA5) ⟨.wrb, 0, 0x7c, 0xA5, f, 0, .buf⟩ 0
def testRdb (st : SeqState) : List Response → State := testIn st (.rdb 0 0x7c) ⟨.rdb, 0, 0x7c, 0, false, 1, .buf⟩ 0
def testWrm (f : Bool) (st : SeqState) : Half → List Response → State :=
  testIn st (.wrm f 1 0x44 0x84) ⟨.wrm, 1, 0x44, 0x84, f, 2, .buf⟩
def testRdm (st : SeqState) : Half → List Response → State :=
  testIn st (.rdm 1 0x44 0x84) ⟨.rdm, 1, 0x44, 0x84, false, 2, .buf⟩
/-- S_STOP of the first transaction of X24SET 0x123456. -/
def testX24 (answers : List Response) : State :=
  { testIn .stop (.x24set 0x123456) ⟨.wrm, 0, 0x44, 0x8c, true, 3, .xb⟩ 0 answers with xb := ⟨0, 0, 0⟩ }

/-- 10_state.md R41: POLL reports the missing acknowledge in ACK, not as an error. -/
theorem test_poll_nack_is_no_error :
    testNext (step { testPoll .addr [.ok 0] with status := ⟨false, false, false, false, .none, true, false, true⟩ })
      (fun t => t.st == .stop && !t.status.ack && !t.status.err && t.trace == [⟨⟨0, .write 0x44⟩, .ok 0⟩]) = true := by decide

/-- 41_sequencer_fsm.md R168: a data byte not acknowledged raises DATA only with ackRequired. -/
theorem test_wrb_data_nack :
    testNext (step (testWrb true .data [.ok 0])) (fun t => t.st == .stop && t.status.err && t.status.phase == .data) = true ∧
    testNext (step (testWrb false .data [.ok 0])) (fun t => t.st == .stop && !t.status.err) = true := by decide

/-- 41_sequencer_fsm.md R178: RDB reads one byte, without acknowledging it. -/
theorem test_rdb_reads_last_byte :
    testNext (step (testRdb .read [.ok 0x5A]))
      (fun t => t.st == .stop && t.rdata == 0x5A && t.trace == [⟨⟨0, .read false⟩, .ok 0x5A⟩]) = true := by decide

/-- 41_sequencer_fsm.md R170: a missing acknowledge is tolerated on the last byte only. -/
theorem test_wrm_nack_first_and_last :
    testNext (step (testWrm false .wdata 0 [.ok 0]))
      (fun t => t.status.err && t.status.phase == .data && t.trace == [⟨⟨1, .write 0xAA⟩, .ok 0⟩]) = true ∧
    testNext (step (testWrm false .wdata 1 [.ok 0]))
      (fun t => !t.status.err && t.st == .stop && t.trace == [⟨⟨1, .write 0xBB⟩, .ok 0⟩]) = true := by decide

/-- 41_sequencer_fsm.md R178: RDM acknowledges every byte but the last and stores in order. -/
theorem test_rdm_reads_two_bytes :
    testNext (step (testRdm .read 0 [.ok 0x11]))
      (fun t => t.st == .read && t.idx == 1 && t.buf == [(0, 0x11), (1, 0xBB)] && t.trace == [⟨⟨1, .read true⟩, .ok 0x11⟩]) = true ∧
    testNext (step (testRdm .read 1 [.ok 0x22]))
      (fun t => t.st == .stop && t.buf == [(0, 0xAA), (1, 0x22)] && t.trace == [⟨⟨1, .read false⟩, .ok 0x22⟩]) = true := by decide

/-- 43_adapter_switch.md R231: channel 3 is mask 0x08; a fault ends the command with PF. -/
theorem test_swsel_mask_and_fault :
    testNext (step (testIn .swsel (.swsel 3) TD.reset 0 [.fault ⟨7⟩]))
      (fun t => t.st == .idle && t.status.done && t.status.pf && t.pfinfo == ⟨7⟩ &&
        t.trace == [⟨⟨0, .swsel 0xe8 0x08⟩, .fault ⟨7⟩⟩]) = true := by decide

/-- 43_adapter_switch.md R233: the zero mask. -/
theorem test_swdes_mask :
    testNext (step (testIn .swsel .swdes TD.reset 0 [.ok 0]))
      (fun t => t.st == .idle && t.status.done && !t.status.pf && t.trace == [⟨⟨0, .swsel 0xe8 0x00⟩, .ok 0⟩]) = true := by decide

/-- 44_adapter_exp24.md R243: 0x123456 goes out as 0x56, 0x34, 0x12, after sub-address X24_OUT_SUB. -/
theorem test_x24set_second_transaction :
    testNext (step (testX24 [.ok 0]))
      (fun t => t.st == .start && t.xb == ⟨0x56, 0x34, 0x12⟩ && t.td.arg == 0x84 && t.status.useq && !t.status.done) = true ∧
    testNext (step (testX24 [.fault ⟨1⟩])) (fun t => t.st == .idle && !t.status.useq && t.status.pf && t.status.done) = true := by
  decide

/-- 45_adapter_exp8.md R251: the issue of X8DRV is that of a writeByte with ackRequired. -/
theorem test_x8drv_issue :
    testNext (exec (.x8drv 0xF0) testIdle)
      (fun t => t.st == .start && t.td == ⟨.wrb, 0, 0x7c, 0xF0, true, 0, .buf⟩ && t.cmd == 0xB00000F0) = true := by decide

/-- 45_adapter_exp8.md R252: X8SNS addresses the expander for reading, 0x7d. -/
theorem test_x8sns_addresses_for_reading :
    testNext (step (testIn .addr .x8sns ⟨.rdb, 0, 0x7c, 0, false, 1, .buf⟩ 0 [.ok 1]))
      (fun t => t.st == .read && t.idx == 0 && t.trace == [⟨⟨0, .write 0x7d⟩, .ok 1⟩]) = true := by decide

/-- 10_state.md R42: DONE and ILL after an illegal word, bits 1 and 4. -/
theorem test_illegal_word_status :
    testNext (step (State.reset.withFetchWord 32 0x10004401)) (fun t => hostReadStatus t == 0x0012) = true := by decide

/-! ## Witnesses: every statement with hypotheses has states and operands that meet them, clause by clause -/

theorem test_witness_DecodeOfEncodeIsTheCommand :
    ∃ c len i, Instr.wellFormed c len i = true ∧ i = .wrm true 1 0x44 0x84 ∧ len = 16 :=
  ⟨Config.built, 16, .wrm true 1 0x44 0x84, by decide, rfl, rfl⟩

theorem test_witness_EncodeOfDecodeIsTheWord : ∃ c len w i, decodeAt c len w = .ok i :=
  ⟨Config.built, 16, 0x50014484, .rdm 1 0x44 0x84, by decide⟩

theorem test_witness_DecodeFollowsTheOpcodeTable :
    (0x0FFFFFFF#32).extractLsb' 28 4 ∈ [0x0#4, 0x6#4, 0x7#4, 0xD#4, 0xE#4, 0xF#4] ∧
    (0xD0000000#32).extractLsb' 28 4 ∈ [0x0#4, 0x6#4, 0x7#4, 0xD#4, 0xE#4, 0xF#4] := by decide

theorem test_witness_IllegalWordsAreExactlyTheListed : decodeAt Config.built 0 0x80000007 = .ok (.swsel 7) := by decide

theorem test_witness_StepRunsTheDecodedCommand :
    ∃ (s : State) (w : Word) (rest : List HostOp) (i : Instr),
      s.st = .idle ∧ s.host = .issue w :: rest ∧ decodeAt s.cfg s.len w = .ok i :=
  ⟨{ testIdle with host := [.issue 0x48014484, .setLen 3] }, 0x48014484, [.setLen 3], .wrm true 1 0x44 0x84, rfl, rfl, by decide⟩

theorem test_witness_StepRunsThePlacedWord : ∃ nbits w i, decodeTableWord nbits w = some i :=
  ⟨32, 0x80000007, .swsel 7, by decide⟩

theorem test_witness_IllegalWordOnlyReportsItself :
    ∃ (s : State) (w : Word) (rest : List HostOp) (why : Illegal),
      s.st = .idle ∧ s.host = .issue w :: rest ∧ decodeAt s.cfg s.len w = .illegal why :=
  ⟨{ testIdle with host := [.issue 0x10024400] }, 0x10024400, [], .busOutOfRange, rfl, rfl, by decide⟩

theorem test_witness_IllFormedCommandIsIllegal :
    ∃ (i : Instr) (s : State), i.wellFormed s.cfg s.len = false :=
  ⟨.wrm true 1 0x44 0x84, { testIdle with len := 17 }, by decide⟩

theorem test_witness_IssueSetsTheDescriptor :
    ∃ (s : State) (bus : Byte), bus.toNat < s.cfg.nbus ∧ bus = 1 ∧ s.len.toNat ≤ s.cfg.maxlen ∧ s.len = 16 :=
  ⟨{ testIdle with len := 16 }, 1, by decide, rfl, by decide, rfl⟩

theorem test_witness_StartOpensTheTransaction :
    (testPoll .start [.ok 0]).st = .start ∧ (testPoll .start [.ok 0]).answers = .ok 0 :: [] ∧
    (testPoll .start [.fault ⟨3⟩]).answers = .fault ⟨3⟩ :: [] ∧
    (testPoll .start [.fault ⟨3⟩]).cfg.stopAfterStartFault = true := ⟨rfl, rfl, rfl, rfl⟩

/-- Each kind of transaction is in S_ADDR somewhere, and both acknowledges can be answered. -/
theorem test_witness_AddressByteDecides :
    (testPoll .addr [.ok 1]).st = .addr ∧ (testPoll .addr [.ok 1]).td.kind = .poll ∧ (testPoll .addr [.ok 1]).answers = [.ok 1] ∧
    (testWrb true .addr [.ok 1]).td.kind = .wrb ∧ (testRdb .addr [.ok 1]).td.kind = .rdb ∧
    (testWrm true .addr 0 [.ok 1]).td.kind = .wrm ∧ (testRdm .addr 0 [.ok 1]).td.kind = .rdm ∧
    (1 : Half).getLsbD 0 = true ∧ (0 : Half).getLsbD 0 = false ∧ (0xFFFE : Half).getLsbD 0 = false := by decide

theorem test_witness_DataByteNackRaisesOnlyIfRequired :
    (testWrb true .data [.ok 0]).st = .data ∧ (testWrb true .data [.ok 0]).answers = .ok 0 :: [] := ⟨rfl, rfl⟩

theorem test_witness_SubAddressByteDecides :
    (testWrm true .sub 0 [.ok 1]).st = .sub ∧ (testWrm true .sub 0 [.ok 1]).answers = .ok 1 :: [] ∧
    (testWrm true .sub 0 [.ok 1]).td.kind = .wrm ∧ (testWrm true .sub 0 [.ok 1]).td.n ≠ 0 ∧
    (testRdm .sub 0 [.ok 1]).td.kind = .rdm ∧
    (testIn .sub (.wrm true 1 0x44 0x84) ⟨.wrm, 1, 0x44, 0x84, true, 0, .buf⟩ 0 [.ok 1]).td.n = 0 := by decide

/-- Bytes from BUF and from XB, the last one and one before it. -/
theorem test_witness_BufferByteNackIsToleratedOnlyOnTheLast :
    (testWrm false .wdata 1 [.ok 0]).st = .wdata ∧ (testWrm false .wdata 1 [.ok 0]).answers = .ok 0 :: [] ∧
    (testWrm false .wdata 1 [.ok 0]).td.src = .buf ∧ (1 : Half).toNat < (testWrm false .wdata 1 [.ok 0]).cfg.maxlen ∧
    Memory.read (testWrm false .wdata 1 [.ok 0]).buf 1 = some 0xBB ∧
    (testWrm false .wdata 1 [.ok 0]).idx.toNat + 1 = (testWrm false .wdata 1 [.ok 0]).td.n.toNat ∧
    (testWrm false .wdata 0 [.ok 0]).idx.toNat + 1 ≠ (testWrm false .wdata 0 [.ok 0]).td.n.toNat ∧
    Memory.read (testWrm false .wdata 0 [.ok 0]).buf 0 = some 0xAA ∧
    (testX24 []).td.src = .xb ∧ [(testX24 []).xb.b0, (testX24 []).xb.b1, (testX24 []).xb.b2][2]? = some 0 := by decide

theorem test_witness_RestartLeadsToTheReadAddress :
    (testRdm .restart 0 [.ok 0]).st = .restart ∧ (testRdm .restart 0 [.ok 0]).answers = .ok 0 :: [] := ⟨rfl, rfl⟩

theorem test_witness_ReadAddressByteDecides :
    (testRdm .addrR 0 [.ok 1]).st = .addrR ∧ (testRdm .addrR 0 [.ok 1]).answers = .ok 1 :: [] ∧
    (testRdm .addrR 0 [.ok 1]).td.n ≠ 0 ∧
    (testIn .addrR (.rdm 1 0x44 0x84) ⟨.rdm, 1, 0x44, 0x84, false, 0, .buf⟩ 0 [.ok 1]).td.n = 0 := by decide

/-- RDB, and the last index of BUF. -/
theorem test_witness_ReadStoresTheByte :
    (testRdb .read [.ok 0x5A]).st = .read ∧ (testRdb .read [.ok 0x5A]).answers = .ok 0x5A :: [] ∧
    (testRdb .read [.ok 0x5A]).td.kind = .rdb ∧ (testRdm .read 15 [.ok 1]).idx.toNat < (testRdm .read 15 [.ok 1]).cfg.maxlen ∧
    (testRdm .read 0 [.ok 1]).idx.toNat + 1 ≠ (testRdm .read 0 [.ok 1]).td.n.toNat := by decide

theorem test_witness_FaultInATransactionGoesToStop :
    (testWrm true .wdata 1 [.fault ⟨3⟩]).st.transacting = true ∧ (testWrm true .wdata 1 [.fault ⟨3⟩]).st ≠ .stop ∧
    ((testWrm true .wdata 1 [.fault ⟨3⟩]).st = .start → (testWrm true .wdata 1 [.fault ⟨3⟩]).cfg.stopAfterStartFault = true) ∧
    request (testWrm true .wdata 1 [.fault ⟨3⟩]) = .next ⟨1, .write 0xBB⟩ ∧
    (testWrm true .wdata 1 [.fault ⟨3⟩]).answers = .fault ⟨3⟩ :: [] := ⟨rfl, by decide, fun _ => rfl, rfl, rfl⟩

theorem test_witness_StopEndsTheTransaction :
    (testX24 [.ok 0]).st = .stop ∧ (testX24 [.ok 0]).answers = .ok 0 :: [] ∧ (testX24 [.ok 0]).cmd.extractLsb' 28 4 = 0xA#4 ∧
    (testX24 [.ok 0]).status.useq = false ∧ (testX24 [.ok 0]).status.err = false ∧ (testX24 [.ok 0]).status.pf = false ∧
    (testRdb .stop [.fault ⟨3⟩]).st = .stop ∧ (testRdb .stop [.fault ⟨3⟩]).cmd.extractLsb' 28 4 ≠ 0xA#4 := by decide

theorem test_witness_SwitchSelectEndsTheCommand :
    (testIn .swsel (.swsel 7) TD.reset 0 [.ok 0]).st = .swsel ∧ (testIn .swsel (.swsel 7) TD.reset 0 [.ok 0]).answers = .ok 0 :: [] ∧
    (testIn .swsel (.swsel 7) TD.reset 0 [.ok 0]).cmd.extractLsb' 28 4 = 0x8#4 ∧
    0x80#8 = 0x01#8 <<< ((testIn .swsel (.swsel 7) TD.reset 0 [.ok 0]).cmd.extractLsb' 0 3).toNat ∧
    (testIn .swsel .swdes TD.reset 0 [.ok 0]).cmd.extractLsb' 28 4 = 0x9#4 := by decide

theorem test_witness_UnansweredRequestWaitsForEver : (testPoll .start []).st ≠ .idle ∧ (testPoll .start []).answers = [] := by decide

/-- The last index of BUF, never written. -/
theorem test_witness_UnwrittenEntryFaults :
    (testWrm true .wdata 15 [.ok 1]).st = .wdata ∧ (testWrm true .wdata 15 [.ok 1]).td.src = .buf ∧
    (testWrm true .wdata 15 [.ok 1]).answers ≠ [] ∧
    (testWrm true .wdata 15 [.ok 1]).idx.toNat < (testWrm true .wdata 15 [.ok 1]).cfg.maxlen ∧
    Memory.read (testWrm true .wdata 15 [.ok 1]).buf (testWrm true .wdata 15 [.ok 1]).idx.toNat = none := by decide

/-- An idle block with `n` answers "acknowledged" to come. -/
def testAcked (n : Nat) : State := { testIdle with answers := List.replicate n (.ok 1) }

theorem test_witness_PollCompletes :
    (testAcked 3).st = .idle ∧ (1 : Byte).toNat < (testAcked 3).cfg.nbus ∧
    (testAcked 3).answers = .ok 1 :: .ok 1 :: .ok 1 :: [] := by decide

/-- POLL, WRB, RDB: both acknowledges of the address byte. -/
theorem test_witness_WrbCompletes_RdbCompletes :
    (testAcked 4).st = .idle ∧ (1 : Byte).toNat < (testAcked 4).cfg.nbus ∧
    (testAcked 4).answers = .ok 1 :: .ok 1 :: .ok 1 :: .ok 1 :: [] ∧ (1 : Half).getLsbD 0 = true ∧
    { testIdle with answers := [.ok 1, .ok 0, .ok 1, .ok 1] }.answers = .ok 1 :: .ok 0 :: .ok 1 :: .ok 1 :: [] ∧
    (0 : Half).getLsbD 0 = false := by decide

/-- Acknowledged, and not: what the environment answers to a Write. -/
def testAck : Half := 1
def testNack : Half := 0

/-- An idle block with the answers `values` to come. -/
def testAnswers (values : List Half) : State := { testIdle with answers := oks values }

/-- Two bytes, the last not acknowledged and ackLast = 0. -/
theorem test_witness_WrmCompletes :
    let s := testAnswers [testNack, testAck, testAck, testAck, testNack, testNack]
    let bytes : List Byte := [0xAA, 0xBB]
    let vals := [testAck, testNack]
    s.st = .idle ∧ (1 : Byte).toNat < s.cfg.nbus ∧ s.len.toNat ≤ s.cfg.maxlen ∧ bytes.length = s.len.toNat ∧
    (∀ k (h : k < bytes.length), Memory.read s.buf k = some bytes[k]) ∧
    vals.length = bytes.length ∧ testAck.getLsbD 0 = true ∧
    (∀ k (h : k < vals.length), k + 1 < vals.length ∨ false = true → vals[k].getLsbD 0 = true) ∧
    s.answers = oks ([testNack, testAck, testAck] ++ vals ++ [testNack]) ++ [] := by decide

/-- The same with LEN = 0. -/
theorem test_witness_WrmCompletes_empty :
    let s := { testAcked 4 with len := 0 }
    s.st = .idle ∧ ([] : List Byte).length = s.len.toNat ∧
      s.answers = oks ([testAck, testAck, testAck] ++ [] ++ [testAck]) ++ [] := by decide

/-- The first byte not acknowledged; the last not acknowledged with ackLast = 1. -/
theorem test_witness_WrmStopsAtTheFirstNackedByte :
    let s := testAnswers [testAck, testAck, testAck, testNack, testAck]
    let r := testAnswers [testAck, testAck, testAck, testAck, testNack, testAck]
    s.st = .idle ∧ (1 : Byte).toNat < s.cfg.nbus ∧ s.len.toNat ≤ s.cfg.maxlen ∧ 0 + 1 < s.len.toNat ∧
    Memory.read s.buf 0 = some 0xAA ∧ Memory.read s.buf 1 = some 0xBB ∧ 1 < s.len.toNat ∧ testNack.getLsbD 0 = false ∧
    s.answers = oks ([testAck, testAck, testAck] ++ [] ++ [testNack, testAck]) ++ [] ∧
    r.answers = oks ([testAck, testAck, testAck] ++ [testAck] ++ [testNack, testAck]) ++ [] := by decide

/-- WRM and RDM, the address or the sub-address not acknowledged. -/
theorem test_witness_WrmRdmHeaderNackEndsTheCommand :
    (testAcked 4).st = .idle ∧ (1 : Byte).toNat < (testAcked 4).cfg.nbus ∧ (testAcked 4).len.toNat ≤ (testAcked 4).cfg.maxlen ∧
    ((Instr.rdm 1 0x44 0x84 = .wrm false 1 0x44 0x84 ∧ Kind.rdm = .wrm) ∨
      (Instr.rdm 1 0x44 0x84 = .rdm 1 0x44 0x84 ∧ Kind.rdm = .rdm ∧ false = false)) ∧
    ((Instr.wrm true 1 0x44 0x84 = .wrm true 1 0x44 0x84 ∧ Kind.wrm = .wrm) ∨
      (Instr.wrm true 1 0x44 0x84 = .rdm 1 0x44 0x84 ∧ Kind.wrm = .rdm ∧ true = false)) ∧
    { testIdle with answers := [.ok 1, .ok 0, .ok 1, .ok 1] }.answers = .ok 1 :: .ok 0 :: .ok 1 :: .ok 1 :: [] ∧
    { testIdle with answers := [.ok 1, .ok 1, .ok 0, .ok 1] }.answers = .ok 1 :: .ok 1 :: .ok 0 :: .ok 1 :: [] ∧
    (0 : Half).getLsbD 0 = false ∧ (1 : Half).getLsbD 0 = true := by decide

/-- Two bytes. -/
theorem test_witness_RdmCompletes :
    let s := testAcked 8
    s.st = .idle ∧ (1 : Byte).toNat < s.cfg.nbus ∧ s.len.toNat ≤ s.cfg.maxlen ∧ [testAck, testAck].length = s.len.toNat ∧
    testAck.getLsbD 0 = true ∧
    s.answers = oks ([testAck, testAck, testAck, testAck, testAck] ++ [testAck, testAck] ++ [testAck]) ++ [] := by decide

theorem test_witness_RdmReadAddressNackEndsTheCommand :
    let s := testAnswers [testAck, testAck, testAck, testAck, testNack, testAck]
    s.st = .idle ∧ (1 : Byte).toNat < s.cfg.nbus ∧ s.len.toNat ≤ s.cfg.maxlen ∧ testAck.getLsbD 0 = true ∧
    testNack.getLsbD 0 = false ∧
    s.answers = .ok testAck :: .ok testAck :: .ok testAck :: .ok testAck :: .ok testNack :: .ok testAck :: [] := by decide

theorem test_witness_SwitchCommandsComplete : (testAcked 1).st = .idle ∧ (testAcked 1).answers = .ok 1 :: [] := ⟨rfl, rfl⟩

theorem test_witness_X24setCompletes :
    (testAcked 14).st = .idle ∧ (testAcked 14).answers = oks (List.replicate 14 testAck) ++ [] ∧
    (∀ v ∈ List.replicate 10 testAck, v.getLsbD 0 = true) :=
  ⟨rfl, rfl, fun v hv => by rw [List.eq_of_mem_replicate hv]; decide⟩

/-- `n` acknowledges in a row meet the premise of X24setPartialFailure about the requests before the failure. -/
theorem test_x24Acked (n : Nat) : x24Acked (List.replicate n testAck) := by
  intro k h _ _
  rw [List.getElem_replicate]
  decide

/-- What is to come for X24SET: its first transaction if it is the second that fails, the requests before the failure, the failure. -/
def testX24Fails (first before : Nat) (failure : List Response) : State :=
  { testIdle with answers := oks (List.replicate first testAck) ++ oks (List.replicate before testAck) ++ failure ++ [] }

/-- The first acknowledge of the first transaction not given, its Stop answered; the last of the second, its Stop faulted. -/
theorem test_witness_X24setPartialFailure_nack :
    let failure : List Response := [.ok testNack, .ok testAck]
    let both : List Response := [.ok testNack, .fault ⟨3⟩]
    (testX24Fails 0 1 failure).st = .idle ∧ testNack.getLsbD 0 = false ∧
    (List.replicate 0 testAck).length = (if false then 7 else 0) ∧ x24Acked (List.replicate 0 testAck) ∧
    (List.replicate 1 testAck).length = 1 ∧ x24Acked (List.replicate 1 testAck) ∧
    (testX24Fails 0 1 failure).answers = oks (List.replicate 0 testAck) ++ oks (List.replicate 1 testAck) ++ failure ++ [] ∧
    (testX24Fails 7 5 both).st = .idle ∧ (List.replicate 7 testAck).length = (if true then 7 else 0) ∧
    x24Acked (List.replicate 7 testAck) ∧ (List.replicate 5 testAck).length = 5 ∧ x24Acked (List.replicate 5 testAck) ∧
    (testX24Fails 7 5 both).answers = oks (List.replicate 7 testAck) ++ oks (List.replicate 5 testAck) ++ both ++ [] :=
  ⟨rfl, by decide, rfl, test_x24Acked 0, rfl, test_x24Acked 1, rfl, rfl, rfl, test_x24Acked 7, rfl, test_x24Acked 5, rfl⟩

/-- The fault of the first Start; of the last data byte of the second transaction; of the Stop of each. -/
theorem test_witness_X24setPartialFailure_fault :
    let byte : List Response := [.fault ⟨3⟩, .ok testAck]
    let stop : List Response := [.fault ⟨3⟩]
    (testX24Fails 0 0 byte).st = .idle ∧ (testX24Fails 0 0 byte).cfg.stopAfterStartFault = true ∧
    (testX24Fails 0 0 byte).answers = oks (List.replicate 0 testAck) ++ oks (List.replicate 0 testAck) ++ byte ++ [] ∧
    (testX24Fails 7 5 byte).st = .idle ∧ ((List.replicate 5 testAck).length = 0 → False) ∧
    (testX24Fails 7 5 byte).answers = oks (List.replicate 7 testAck) ++ oks (List.replicate 5 testAck) ++ byte ++ [] ∧
    (List.replicate 6 testAck).length = 6 ∧ x24Acked (List.replicate 6 testAck) ∧
    (testX24Fails 0 6 stop).answers = oks (List.replicate 0 testAck) ++ oks (List.replicate 6 testAck) ++ stop ++ [] ∧
    (testX24Fails 7 6 stop).answers = oks (List.replicate 7 testAck) ++ oks (List.replicate 6 testAck) ++ stop ++ [] :=
  ⟨rfl, rfl, rfl, rfl, by decide, rfl, rfl, test_x24Acked 6, rfl, rfl⟩

/-- Both acknowledges of the expander's address byte. -/
theorem test_witness_X8drvCompletes_X8snsCompletes :
    (testAcked 4).st = .idle ∧ (testAcked 4).answers = .ok 1 :: .ok 1 :: .ok 1 :: .ok 1 :: [] ∧ (1 : Half).getLsbD 0 = true ∧
    { testIdle with answers := [.ok 1, .ok 0, .ok 1, .ok 1] }.answers = .ok 1 :: .ok 0 :: .ok 1 :: .ok 1 :: [] ∧
    (0 : Half).getLsbD 0 = false := by decide

/-- X8DRV beside WRB, then X8SNS beside RDB. -/
theorem test_witness_ExpanderCommandsAreEngineCommands :
    ∃ (s : State) (i j : Instr) (data : Byte) (a b u : State) (k : Nat), s.cfg.x8Bus.toNat < s.cfg.nbus ∧
      ((i = .x8drv data ∧ j = .wrb true s.cfg.x8Bus s.cfg.x8Addr data) ∨ (i = .x8sns ∧ j = .rdb s.cfg.x8Bus s.cfg.x8Addr)) ∧
      exec i s = .next a ∧ exec j s = .next b ∧ Runs k a u :=
  ⟨testAcked 4, .x8drv 0xF0, .wrb true 0 0x7c 0xF0, 0xF0, _, _, _, 1, by decide, .inl ⟨rfl, rfl⟩, rfl, rfl, _, rfl, rfl⟩

theorem test_witness_ExpanderCommandsAreEngineCommands_x8sns :
    ∃ (s : State) (i j : Instr) (data : Byte) (a b u : State) (k : Nat), s.cfg.x8Bus.toNat < s.cfg.nbus ∧
      ((i = .x8drv data ∧ j = .wrb true s.cfg.x8Bus s.cfg.x8Addr data) ∨ (i = .x8sns ∧ j = .rdb s.cfg.x8Bus s.cfg.x8Addr)) ∧
      exec i s = .next a ∧ exec j s = .next b ∧ Runs k a u ∧ i = .x8sns :=
  ⟨testAcked 4, .x8sns, .rdb 0 0x7c, 0, _, _, _, 1, by decide, .inr ⟨rfl, rfl⟩, rfl, rfl, ⟨_, rfl, rfl⟩, rfl⟩

/-- Two bytes, the first and the last entry of BUF overwritten in between, the environment returning what was written. -/
def testCopy : State :=
  { testAnswers (List.replicate 11 testAck ++ [0xAA, 0xBB, testAck]) with
    host := [.issue 0x48014484, .bufWrite 0 0, .bufWrite 15 0, .issue 0x50014484] }

theorem test_witness_WriteThenReadBackIsTheIdentity :
    let acks := [testAck, testAck]
    let data : List Half := [0xAA, 0xBB]
    let bytes : List Byte := [0xAA, 0xBB]
    let clobber : List (Half × Byte) := [(0, 0), (15, 0)]
    testCopy.st = .idle ∧ (1 : Byte).toNat < testCopy.cfg.nbus ∧ testCopy.len.toNat ≤ testCopy.cfg.maxlen ∧
    bytes.length = testCopy.len.toNat ∧ (∀ k (h : k < bytes.length), Memory.read testCopy.buf k = some bytes[k]) ∧
    (∀ c ∈ clobber, c.1.toNat < testCopy.cfg.maxlen) ∧ acks.length = bytes.length ∧ data.length = bytes.length ∧
    (∀ v ∈ testAck :: testAck :: testAck :: testAck :: testAck :: acks, v = testAck) ∧ testAck.getLsbD 0 = true ∧
    encode (.wrm true 1 0x44 0x84) = 0x48014484 ∧ encode (.rdm 1 0x44 0x84) = 0x50014484 ∧
    testCopy.host = .issue 0x48014484 :: (clobber.map (fun c => HostOp.bufWrite c.1 c.2) ++ [.issue 0x50014484]) ∧
    testCopy.answers = oks ([testAck, testAck, testAck] ++ acks ++ [testAck, testAck, testAck, testAck, testAck, testAck] ++ data ++
      [testAck]) ++ [] ∧
    data.map (fun v => v.extractLsb' 0 8) = bytes :=
  ⟨rfl, by decide, by decide, rfl, by decide,
    List.forall_mem_cons.2 ⟨by decide, List.forall_mem_cons.2 ⟨by decide, by simp⟩⟩, rfl, rfl, by simp, by decide, by decide,
    by decide, rfl, rfl, by decide⟩

/-- SetLen; HostBufWrite at the last index of BUF and just past it. -/
theorem test_witness_HostWritesLenAndBuf :
    testIdle.st = .idle ∧ { testIdle with host := [.setLen 65535] }.host = .setLen 65535 :: [] ∧
    { testIdle with host := [.bufWrite 15 1] }.host = .bufWrite 15 1 :: [] ∧ (15 : Half).toNat < testIdle.cfg.maxlen ∧
    { testIdle with host := [.bufWrite 16 1] }.host = .bufWrite 16 1 :: [] ∧ testIdle.cfg.maxlen ≤ (16 : Half).toNat := by decide

theorem test_witness_PortIsClosedWhileBusy :
    ∃ s t : State, s.st ≠ .idle ∧ step s = .next t ∧ s.host = [.setLen 3] :=
  ⟨{ testPoll .addr [.ok 1] with host := [.setLen 3] }, _, by decide, rfl, rfl⟩

/-- Readable; not readable while BUSY; not readable with DONE = 0. -/
theorem test_witness_ResultsAreReadWhenDone :
    ∃ s t u : State, (s.st = .idle ∧ s.status.done = true ∧ (1 : Half).toNat < s.cfg.maxlen ∧
        Memory.read s.buf (1 : Half).toNat = some 0xBB) ∧ (t.st ≠ .idle ∨ t.status.done = false) ∧
      (u.st ≠ .idle ∨ u.status.done = false) ∧ t.st = .addr ∧ u.st = .idle :=
  ⟨{ testIdle with status := { Status.reset with done := true } }, testPoll .addr [], testIdle, by decide, by decide, by decide,
    rfl, rfl⟩

/-- An idle block after a command, with nothing to come; idle blocks whose host writes LEN, writes the last entry of BUF, or resets. -/
theorem test_witness_NothingHappensAfterReset :
    (∃ s : State, s.st = .idle ∧ s.host = [] ∧ s.status.done = true) ∧
    (∀ op ∈ [HostOp.setLen 3, .bufWrite 15 1, .reset], ∃ s t : State,
      s.st = .idle ∧ s.host = [op] ∧ (∀ w, s.host.head? ≠ some (.issue w)) ∧ step s = .next t) := by
  refine ⟨⟨{ testIdle with status := { Status.reset with done := true } }, rfl, rfl, rfl⟩, fun op h => ?_⟩
  simp only [List.mem_cons, List.not_mem_nil, or_false] at h
  obtain rfl | rfl | rfl := h
  · exact ⟨{ testIdle with host := [.setLen 3] }, _, rfl, rfl, nofun, rfl⟩
  · exact ⟨{ testIdle with host := [.bufWrite 15 1] }, _, rfl, rfl, nofun, rfl⟩
  · exact ⟨{ testIdle with host := [.reset] }, _, rfl, rfl, nofun, rfl⟩

theorem test_witness_ResetInputRequestsNothing :
    { testIdle with host := [.reset, .setLen 1] }.st = .idle ∧
    { testIdle with host := [.reset, .setLen 1] }.host = .reset :: [.setLen 1] := ⟨rfl, rfl⟩

/-- A WRM about to send its last byte meets the invariant. -/
theorem test_invariant_wrm (answers : List Response) : Invariant (testWrm true .wdata 1 answers) where
  bufWf := rfl
  bufBelow := rfl
  openIff := rfl
  doneIdle := fun h => nomatch h
  illAlone := fun h => nomatch h
  errPhase := ⟨fun h => (nomatch h), fun h => absurd rfl h⟩
  errorStops := fun h => by rcases h with h | h <;> cases h
  useqX24 := fun h => nomatch h
  kindFits := fun _ => rfl
  indexLive := fun _ => show 1 < 2 by decide
  tdIsCommand := fun _ =>
    ⟨.wrm true 1 0x44 0x84, show decodeAt Config.built 2 (encode (.wrm true 1 0x44 0x84)) = _ by decide, rfl⟩
  xbStaged := fun _ h => nomatch h
  swselCommand := fun h => nomatch h

theorem test_witness_StepKeepsTheInvariant : ∃ s t : State, Invariant s ∧ step s = .next t ∧ s.st = .wdata :=
  ⟨testWrm true .wdata 1 [.ok 1], _, test_invariant_wrm _, rfl, rfl⟩

/-- The invariant says nothing of answers and of the trace. -/
theorem test_invariant_trace {s : State} (h : Invariant s) (a : List Response) (tr : List Exchange) :
    Invariant { s with answers := a, trace := tr } :=
  ⟨h.bufWf, h.bufBelow, h.openIff, h.doneIdle, h.illAlone, h.errPhase, h.errorStops, h.useqX24, h.kindFits, h.indexLive,
    h.tdIsCommand, h.xbStaged, h.swselCommand⟩

theorem test_witness_StepKeepsTheBracket :
    ∃ s t : State, Invariant s ∧ s.cfg.stopAfterStartFault = true ∧ Bracketed s ∧ step s = .next t ∧ s.st = .wdata :=
  ⟨{ testWrm true .wdata 1 [.ok 1] with answers := [.ok 1], trace := [⟨⟨1, .start⟩, .ok 0⟩] }, _,
    test_invariant_trace (test_invariant_wrm _) _ _, rfl, rfl, rfl, rfl⟩

/-- An idle block keeps the invariant, whatever is listed to come. -/
theorem test_invariant_idle (len : Half) (host : List HostOp) (answers : List Response) :
    Invariant { testIdle with len := len, host := host, answers := answers } where
  bufWf := rfl
  bufBelow := rfl
  openIff := rfl
  doneIdle := fun _ => rfl
  illAlone := fun h => nomatch h
  errPhase := ⟨fun h => (nomatch h), fun h => absurd rfl h⟩
  errorStops := fun _ => .inl rfl
  useqX24 := fun h => nomatch h
  kindFits := fun _ => rfl
  indexLive := fun h => by rcases h with h | h <;> cases h
  tdIsCommand := fun h => nomatch h
  xbStaged := fun h => nomatch h
  swselCommand := fun h => nomatch h

/-- Both stops: an unwritten entry, and a host write past the end of BUF. -/
theorem test_witness_OnlyTwoStopsExist :
    (∃ s e, Invariant s ∧ step s = .fault e ∧ s.st = .wdata) ∧ (∃ s e, Invariant s ∧ step s = .fault e ∧ s.st = .idle) := by
  refine ⟨⟨{ testWrm true .wdata 1 [.ok 1] with buf := [(0, 0xAA)] }, .bufUnwritten 1, ?_, by rfl, rfl⟩,
    ⟨_, .bufOutOfRange 16, test_invariant_idle 2 [.bufWrite 16 0] [], by rfl, rfl⟩⟩
  have h := test_invariant_wrm [.ok 1]
  exact ⟨rfl, rfl, h.openIff, h.doneIdle, h.illAlone, h.errPhase, h.errorStops, h.useqX24, h.kindFits, h.indexLive, h.tdIsCommand,
    h.xbStaged, h.swselCommand⟩

/-- A WRM of LEN = 2 with six answers, its bound. -/
theorem test_witness_EveryCommandEndsWithinItsBound :
    ∃ (s : State) (i : Instr), Invariant s ∧ s.st = .idle ∧ i.wellFormed s.cfg s.len = true ∧ PayloadReady s i ∧
      commandBound s.cfg s.len i ≤ s.answers.length ∧ i = .wrm true 1 0x44 0x84 := by
  refine ⟨_, .wrm true 1 0x44 0x84, test_invariant_idle 2 [] (List.replicate 6 (.ok 1)), rfl, by decide, ?_, by decide, rfl⟩
  intro k hk
  have h : k < 2 := hk
  interval_cases k <;> decide

theorem test_witness_IdleIsReachedOnlyThroughStop :
    ∃ s t u v : State, s.st ≠ .idle ∧ s.cfg.stopAfterStartFault = true ∧ s.answers ≠ [] ∧ step s = .next t ∧ s.st ≠ .stop ∧
      s.st ≠ .swsel ∧ u.st = .stop ∧ u.answers ≠ [] ∧ v.st = .swsel ∧ v.answers ≠ [] :=
  ⟨testPoll .addr [.ok 1], _, testPoll .stop [.ok 1], testIn .swsel .swdes TD.reset 0 [.ok 0], by decide, rfl, by decide, rfl,
    by decide, by decide, rfl, by decide, rfl, by decide⟩

/-- A WRM in S_STOP after a data byte was not acknowledged. -/
theorem test_witness_AfterAnErrorOnlyStopFollows :
    ∃ (s : State) (r : Response) (rest : List Response), Invariant s ∧ s.st ≠ .idle ∧
      (s.status.err = true ∨ s.status.pf = true) ∧ s.answers = r :: rest := by
  refine ⟨{ testWrm true .stop 0 [.ok 0] with status := ⟨false, true, false, false, .data, true, false, false⟩ }, .ok 0, [], ?_,
    by decide, .inl rfl, rfl⟩
  exact ⟨rfl, rfl, rfl, by decide, by decide, by decide, by decide, by decide, fun _ => rfl, by decide,
    fun _ => ⟨.wrm true 1 0x44 0x84, by decide, rfl⟩, by decide, by decide⟩

/-- The same, with PF set and the Stop faulted. -/
theorem test_witness_AfterAnErrorOnlyStopFollows_fault :
    ∃ (s : State) (r : Response) (rest : List Response), Invariant s ∧ s.st ≠ .idle ∧
      (s.status.err = true ∨ s.status.pf = true) ∧ s.answers = r :: rest ∧ s.status.pf = true := by
  refine ⟨{ testWrm true .stop 0 [.fault ⟨3⟩] with status := ⟨false, false, true, false, .none, true, false, false⟩ }, .fault ⟨3⟩, [],
    ?_, by decide, .inr rfl, rfl, rfl⟩
  exact ⟨rfl, rfl, rfl, by decide, by decide, by decide, by decide, by decide, fun _ => rfl, by decide,
    fun _ => ⟨.wrm true 1 0x44 0x84, by decide, rfl⟩, by decide, by decide⟩

theorem test_witness_EveryProtocolErrorHasItsCause :
    ∃ s t : State, Invariant s ∧ step s = .next t ∧ s.status.err = false ∧ t.status.err = true :=
  ⟨testWrm true .wdata 1 [.ok 0], _, test_invariant_wrm _, rfl, rfl, rfl⟩

theorem test_witness_PrimitiveStepFrame : ∃ s t : State, s.st ≠ .idle ∧ step s = .next t :=
  ⟨testRdm .read 0 [.ok 1], _, by decide, rfl⟩

theorem test_witness_OneRequestOneResponse : ∃ s t : State, step s = .next t ∧ s.st = .swsel :=
  ⟨testIn .swsel .swdes TD.reset 0 [.ok 0], _, rfl, rfl⟩

/-- A renaming that keeps the reset value, and a state whose host does not ask for a reset. -/
theorem test_witness_FaultInformationIsOnlyCopied :
    ∃ (f : PFInfo → PFInfo) (s : State), (f ⟨0⟩ = ⟨0⟩ ∨ s.host.head? ≠ some .reset) ∧ s.answers = [.fault ⟨3⟩] ∧ f ⟨3⟩ = ⟨6⟩ :=
  ⟨fun p => ⟨2 * p.info⟩, testPoll .start [.fault ⟨3⟩], .inl rfl, rfl, rfl⟩

/-- One status for each clause; the third is both an error and a fault, as 60_exceptions.md R271 has it. -/
theorem test_witness_OutcomeIsReadInThisOrder :
    outcome { testIdle with status := ⟨true, false, false, true, .none, false, false, false⟩ } = .illegal ∧
    outcome { testIdle with status := ⟨true, false, true, false, .none, false, false, false⟩, pfinfo := ⟨3⟩ } = .primFault ⟨3⟩ ∧
    outcome { testIdle with status := ⟨true, true, true, false, .data, false, false, false⟩, pfinfo := ⟨3⟩ } = .primFault ⟨3⟩ ∧
    outcome { testIdle with status := ⟨true, true, false, false, .data, false, false, false⟩ } = .protocolError .data ∧
    outcome { testIdle with status := ⟨true, false, false, false, .none, false, false, false⟩ } = .ok := by decide

end Sys2Proof.Machine
end

/-! PROOF. INV-BRACKET (00_scope.md R17; 41_sequencer_fsm.md R186) is kept by every step. The bracket of a trace and OPEN move
together: the request each state of ST makes takes the bracket from `inTransaction` to `openAfter` (`request_bracketStep`), and the
move on the response takes OPEN there too (`move_busOpen`). Nothing the host does while the block is idle touches either. -/

namespace Sys2Proof.Machine

/-- `s` and `t` stand at the same place of the same bracket: same trace, same OPEN. -/
def SameBracket (s t : State) : Prop := t.trace = s.trace ∧ t.status.busOpen = s.status.busOpen

theorem SameBracket.bracketed {s t : State} (h : SameBracket s t) (hs : Bracketed s) : Bracketed t := by
  obtain ⟨htrace, hopen⟩ := h
  rwa [Bracketed, htrace, hopen]

/-! ## The host port -/

theorem sameBracket_issue {i : Instr} {legal : Bool} {setUp : State → State} {s t : State}
    (h : issue i legal setUp s = .next t) (hf : ∀ u, SameBracket u (setUp u)) : SameBracket s t := by
  cases legal with
  | false => cases h; exact ⟨rfl, rfl⟩
  | true => cases h; exact hf (latchCommand i s)

/-- The issue of a command requests nothing and keeps OPEN (41_sequencer_fsm.md R162, R163). -/
theorem sameBracket_exec {i : Instr} {s t : State} (h : exec i s = .next t) : SameBracket s t := by
  cases i <;>
    simp only [exec, execPoll, execWrb, execRdb, execWrm, execRdm, execSwsel, execSwdes, execX24set, execX8drv, execX8sns] at h <;>
    exact sameBracket_issue h fun _ => ⟨rfl, rfl⟩

theorem sameBracket_issueWord {w : Word} {s t : State} (h : issueWord w s = .next t) : SameBracket s t := by
  unfold issueWord at h
  split at h
  · exact sameBracket_exec h
  · cases h; exact ⟨rfl, rfl⟩

theorem sameBracket_bufWrite {i : Nat} {v : Byte} {s t : State} (h : bufWrite s i v = .next t) : SameBracket s t := by
  by_cases hi : i < s.cfg.maxlen
  · rw [bufWrite_of_lt s i v hi] at h
    cases h; exact ⟨rfl, rfl⟩
  · rw [bufWrite_of_ge s i v hi] at h
    cases h

/-- Outside a transaction no host operation touches the bracket; the reset input clears OPEN, which is 0 there. -/
theorem sameBracket_hostStep {op : HostOp} {s t : State} (hopen : s.status.busOpen = false) (h : hostStep op s = .next t) :
    SameBracket s t := by
  cases op with
  | issue w => exact sameBracket_issueWord h
  | setLen v => cases h; exact ⟨rfl, rfl⟩
  | bufWrite i v => exact sameBracket_bufWrite h
  | reset => cases h; exact ⟨rfl, hopen.symm⟩

/-! ## The primitive steps -/

/-- OPEN after the request of state `st` has been answered, `b` being OPEN before: Start sets it, Stop clears it and every other
request keeps it (10_state.md R44; 41_sequencer_fsm.md R164, R175). -/
def SeqState.openAfter (st : SeqState) (b : Bool) : Bool :=
  if st = .start then true else if st = .stop then false else b

@[simp] theorem SeqState.openAfter_start (b : Bool) : SeqState.openAfter .start b = true := rfl

@[simp] theorem SeqState.openAfter_stop (b : Bool) : SeqState.openAfter .stop b = false := rfl

theorem SeqState.openAfter_of_ne {st : SeqState} (b : Bool) (hstart : st ≠ .start) (hstop : st ≠ .stop) : st.openAfter b = b := by
  simp [SeqState.openAfter, hstart, hstop]

/-- The request of each state is legal where it is made and moves the bracket to where OPEN goes (40_primitive_port.md R148). -/
theorem request_bracketStep {s : State} {q : Request} (h : request s = .next q) :
    bracketStep (some s.st.inTransaction) q.prim = some (s.st.openAfter s.st.inTransaction) := by
  cases hs : s.st <;> simp only [request, hs] at h
  case idle => cases h
  case wdata =>
    split at h <;> cases h
    rfl
  case swsel =>
    split at h <;> cases h
    rfl
  all_goals cases h; rfl

@[simp] theorem recordIfFault_trace (r : Response) (s : State) : (recordIfFault r s).trace = s.trace := by
  cases r <;> rfl

@[simp] theorem recordIfFault_busOpen (r : Response) (s : State) : (recordIfFault r s).status.busOpen = s.status.busOpen := by
  cases r <;> rfl

theorem Stores.sameBracket {v : Byte} {s t : State} (h : Stores v s t) : SameBracket s t := by
  obtain ⟨_, rfl⟩ | ⟨_, _, rfl⟩ := h <;> exact ⟨rfl, rfl⟩

/-- An unmet acknowledge is that of a Write, so neither Start's nor Stop's (60_exceptions.md R263). -/
theorem NackRaises.st_ne {s : State} {p : Phase} (h : NackRaises s p) : s.st ≠ .start ∧ s.st ≠ .stop := by
  obtain ⟨_, h, _⟩ | ⟨_, h, _⟩ | ⟨_, h, _⟩ | ⟨_, h⟩ | ⟨_, h, _⟩ | ⟨_, h⟩ := h <;> simp [h]

/-- The move on a response requests nothing more. -/
theorem move_trace {r : Response} {s t : State} (h : Move r s t) : t.trace = s.trace := by
  cases h
  case lastRead hs _ => exact hs.sameBracket.1
  case byteRead hs _ => exact hs.sameBracket.1
  all_goals simp

/-- The move on a response takes OPEN where the request took the bracket, whatever the response is. The rows of
S_START and S_STOP set and clear OPEN; every other row leaves it as it is. -/
theorem move_busOpen {r : Response} {s t : State} (hc : s.cfg.stopAfterStartFault = true) (h : Move r s t) :
    t.status.busOpen = s.st.openAfter s.status.busOpen := by
  cases h
  case startOk hs => simp [hs]
  case startFault hs _ => simp [hs]
  case startAbandoned hc' => simp [hc] at hc'
  case again hs _ => simp [hs]
  case stopped hs _ => simp [hs]
  case fault hs => obtain hs | hs | hs | hs | hs | hs | hs := hs <;> simp [hs, SeqState.openAfter_of_ne]
  case nack hn =>
    obtain ⟨hstart, hstop⟩ := hn.st_ne
    simp [SeqState.openAfter_of_ne _ hstart hstop]
  case lastRead hst hs _ => simp [hst, SeqState.openAfter_of_ne, hs.sameBracket.2]
  case byteRead hst hs _ => simp [hst, SeqState.openAfter_of_ne, hs.sameBracket.2]
  all_goals simp [*, SeqState.openAfter_of_ne]

/-! ## The bracket -/

/-- One more exchange is one more step of the bracket. -/
theorem bracket_append_singleton (trace : List Exchange) (e : Exchange) :
    bracket (trace ++ [e]) = bracketStep (bracket trace) e.request.prim := by
  simp [bracket, List.foldl_append]

/-- An answered request and its move keep the bracket: `bracketStep` and OPEN both go to `openAfter`. -/
theorem bracketed_of_move {s t : State} {q : Request} {r : Response} (hopen : s.status.busOpen = s.st.inTransaction)
    (hc : s.cfg.stopAfterStartFault = true) (hb : Bracketed s) (hq : request s = .next q) (hm : Move r (exchange q r s) t) :
    Bracketed t := by
  have htrace : t.trace = s.trace ++ [⟨q, r⟩] := move_trace hm
  have hopen' : t.status.busOpen = s.st.openAfter s.status.busOpen := move_busOpen (s := exchange q r s) hc hm
  calc bracket t.trace
      = bracketStep (bracket s.trace) q.prim := by rw [htrace, bracket_append_singleton]
    _ = bracketStep (some s.st.inTransaction) q.prim := by rw [hb, hopen]
    _ = some (s.st.openAfter s.st.inTransaction) := request_bracketStep hq
    _ = some t.status.busOpen := by rw [hopen', hopen]

/-- Settles O51: while idle OPEN is 0 and the host's operation touches neither the trace nor OPEN; a waiting block stands still; an
answered request takes both to the same place. -/
theorem stepKeepsTheBracket : Obligations.StepKeepsTheBracket := by
  intro s t hinv hc hb hstep
  obtain ⟨_, _, rfl⟩ | ⟨op, rest, hidle, _, hop⟩ | ⟨_, _, rfl⟩ | ⟨q, r, rest, _, _, hq, hr⟩ := step_cases hstep
  · exact hb
  · have hclosed : s.status.busOpen = false := by rw [hinv.openIff, hidle]; rfl
    exact (sameBracket_hostStep (s := { s with host := rest }) hclosed hop).bracketed hb
  · exact hb
  · exact bracketed_of_move hinv.openIff hc hb hq (respond_move hr)

end Sys2Proof.Machine

/-! PROOF. What a primitive step leaves unchanged (10_state.md R36 to R45) and, from it, that the port is closed while BUSY (R52, R53).
Each register has one lemma over `Move`, whose named cases are the rows that write it. The request and its answer touch no
register, so what holds of the move holds of the step. -/

namespace Sys2Proof.Machine

/-- The registers that no primitive step writes; TD changes in its ARG at most (10_state.md R36; 41_sequencer_fsm.md R176). -/
def SameFixed (s t : State) : Prop :=
  t.cmd = s.cmd ∧ t.len = s.len ∧ t.cfg = s.cfg ∧ t.host = s.host ∧ t.status.ill = s.status.ill ∧
    { t.td with arg := s.td.arg } = s.td

/-! ## The moves -/

/-- A byte read goes to RDATA or to BUF and touches nothing else. -/
theorem Stores.eq_update {v : Byte} {s t : State} (h : Stores v s t) : t = { s with rdata := t.rdata, buf := t.buf } := by
  obtain ⟨_, rfl⟩ | ⟨_, _, rfl⟩ := h <;> rfl

/-- A byte read changes BUF only at IDX, and not for RDB. -/
theorem Stores.read_buf {v : Byte} {s t : State} (h : Stores v s t) (j : Nat) :
    Memory.read t.buf j = Memory.read s.buf j ∨ (s.td.kind ≠ .rdb ∧ j = s.idx.toNat) := by
  obtain ⟨_, rfl⟩ | ⟨hk, _, rfl⟩ := h
  · exact .inl rfl
  · by_cases hj : j = s.idx.toNat
    · exact .inr ⟨hk, hj⟩
    · exact .inl (Memory.read_write_of_ne _ _ _ _ hj)

/-- A byte read changes RDATA for RDB only. -/
theorem Stores.rdata {v : Byte} {s t : State} (h : Stores v s t) : t.rdata = s.rdata ∨ s.td.kind = .rdb := by
  obtain ⟨hk, _⟩ | ⟨_, _, rfl⟩ := h
  · exact .inr hk
  · exact .inl rfl

/-- A response that ends a transaction changes PF and PFINFO at most. -/
theorem recordIfFault_eq (r : Response) (s : State) :
    recordIfFault r s =
      { s with status := { s.status with pf := s.status.pf || r.faulted }, pfinfo := r.infoAfter s.pfinfo } := by
  cases r <;> simp [recordIfFault, recordFault]

theorem move_sameFixed {r : Response} {s t : State} (h : Move r s t) : SameFixed s t := by
  cases h
  case lastRead hs _ => rw [hs.eq_update]; simp [SameFixed]
  case byteRead hs _ => rw [hs.eq_update]; simp [SameFixed]
  all_goals simp [SameFixed, recordIfFault_eq]

/-- BUF changes only in S_READ (20_memory.md R71; 41_sequencer_fsm.md R178). -/
theorem move_read_buf {r : Response} {s t : State} (h : Move r s t) (j : Nat) :
    Memory.read t.buf j = Memory.read s.buf j ∨ (s.st = .read ∧ s.td.kind ≠ .rdb ∧ j = s.idx.toNat) := by
  cases h
  case lastRead hst hs _ => exact (hs.read_buf j).imp_right fun hj => ⟨hst, hj⟩
  case byteRead hst hs _ => exact (hs.read_buf j).imp_right fun hj => ⟨hst, hj⟩
  all_goals exact .inl (by simp [recordIfFault_eq])

/-- RDATA changes only in S_READ of RDB (10_state.md R40). -/
theorem move_rdata {r : Response} {s t : State} (h : Move r s t) :
    t.rdata = s.rdata ∨ (s.st = .read ∧ s.td.kind = .rdb) := by
  cases h
  case lastRead hst hs _ => exact hs.rdata.imp_right fun hk => ⟨hst, hk⟩
  case byteRead hst hs _ => exact hs.rdata.imp_right fun hk => ⟨hst, hk⟩
  all_goals exact .inl (by simp [recordIfFault_eq])

/-- ACK changes only in S_ADDR of POLL (10_state.md R41). -/
theorem move_ack {r : Response} {s t : State} (h : Move r s t) :
    t.status.ack = s.status.ack ∨ (s.st = .addr ∧ s.td.kind = .poll) := by
  cases h
  case probed hst hk => exact .inr ⟨hst, hk⟩
  case lastRead hs _ => rw [hs.eq_update]; exact .inl rfl
  case byteRead hs _ => rw [hs.eq_update]; exact .inl rfl
  all_goals exact .inl (by simp [recordIfFault_eq])

/-- XB, TD.ARG and USEQ change only where the second transaction of X24SET opens (41_sequencer_fsm.md R176). -/
theorem move_secondTransaction {r : Response} {s t : State} (h : Move r s t) :
    (t.xb = s.xb ∧ t.td.arg = s.td.arg ∧ t.status.useq = s.status.useq) ∨
      (s.st = .stop ∧ t.st = .start ∧ opField s.cmd = 0xA) := by
  cases h
  case again hst hc => exact .inr ⟨hst, rfl, by simp_all [chains, recordIfFault_eq]⟩
  case lastRead hs _ => rw [hs.eq_update]; exact .inl ⟨rfl, rfl, rfl⟩
  case byteRead hs _ => rw [hs.eq_update]; exact .inl ⟨rfl, rfl, rfl⟩
  all_goals exact .inl (by simp [recordIfFault_eq])

/-- PFINFO changes only to what a fault carries, and PF then says so (60_exceptions.md R266). -/
theorem move_pfinfo {r : Response} {s t : State} (h : Move r s t) :
    t.pfinfo = s.pfinfo ∨ (r = .fault t.pfinfo ∧ t.status.pf = true) := by
  cases h
  case startFault | startAbandoned | fault => exact .inr ⟨rfl, rfl⟩
  case again | stopped | selected => cases r <;> simp [recordIfFault_eq]
  case lastRead hs _ => rw [hs.eq_update]; exact .inl rfl
  case byteRead hs _ => rw [hs.eq_update]; exact .inl rfl
  all_goals exact .inl rfl

/-! ## The step -/

/-- A step while BUSY waits, or is an exchange and a move. -/
theorem step_busy_cases {s t : State} (hb : s.st ≠ .idle) (h : step s = .next t) :
    t = s ∨ ∃ q r rest, s.answers = r :: rest ∧ Move r (exchange q r s) t := by
  by_cases ha : s.answers = []
  · rw [step_unanswered s hb ha] at h
    cases h
    exact .inl rfl
  · obtain ⟨q, r, rest, hr, _, hm⟩ := step_move hb ha h
    exact .inr ⟨q, r, rest, hr, hm⟩

/-- Settles O57: a waiting block stands still, and each register changes only in the rows of its own lemma. -/
theorem primitiveStepFrame : Obligations.PrimitiveStepFrame := by
  intro s t hb hstep
  obtain rfl | ⟨q, r, rest, ha, hm⟩ := step_busy_cases hb hstep
  · simp
  · obtain ⟨hcmd, hlen, hcfg, hhost, hill, htd⟩ := move_sameFixed hm
    exact ⟨hcmd, hlen, hcfg, hhost, hill, htd, (move_read_buf hm :), (move_rdata hm :), (move_ack hm :),
      (move_secondTransaction hm :), (move_pfinfo hm).imp_right fun ⟨hr, hpf⟩ => ⟨rest, hr ▸ ha, hpf⟩⟩

/-- Settles O44, by the frame of a primitive step (O57). -/
theorem portIsClosedWhileBusy : Obligations.PortIsClosedWhileBusy := by
  intro s t hb hstep
  obtain ⟨hcmd, hlen, _, hhost, _⟩ := primitiveStepFrame s t hb hstep
  exact ⟨hhost, hlen, hcmd⟩

end Sys2Proof.Machine

/-! PROOF. The host port (10_state.md R42, R43, R52 to R54) and the state after reset (R57). -/

namespace Sys2Proof.Machine

/-! ## STATUS -/

/-- PHASE stands in bits 7:5 of STATUS (10_state.md R43). -/
theorem statusWord_phase (s : State) : (statusWord s).extractLsb' 5 3 = s.status.phase.code := by
  apply BitVec.eq_of_getLsbD_eq
  intro i hi
  simp only [statusWord, BitVec.getLsbD_extractLsb', BitVec.getLsbD_append]
  interval_cases i <;> simp

/-- Bits 15:11 of STATUS are reserved (10_state.md R42). -/
theorem statusWord_reserved (s : State) : (statusWord s).extractLsb' 11 5 = 0 := by
  apply BitVec.eq_of_getLsbD_eq
  intro i hi
  simp only [statusWord, BitVec.getLsbD_extractLsb', BitVec.getLsbD_append]
  interval_cases i <;> simp

/-- Bit 0 of STATUS is BUSY (10_state.md R42). -/
theorem statusWord_busy (s : State) : (statusWord s).getLsbD 0 = busy s := by
  simp only [statusWord, BitVec.getLsbD_append]
  simp

/-- Settles O9: PHASE, the reserved bits and BUSY by their own lemmas, the other flags bit by bit. -/
theorem statusWordLayout : Obligations.StatusWordLayout := by
  intro s
  refine ⟨by rw [statusWord_busy, busy_iff], ?done, ?err, ?pf, ?ill, ?phase, ?busOpen, ?useq, ?ack, statusWord_reserved s⟩
  case phase =>
    rw [statusWord_phase]
    cases s.status.phase <;> rfl
  all_goals
    simp only [statusWord, BitVec.getLsbD_append]
    simp

/-! ## Writes -/

/-- Settles O43: the idle block takes the operation; BufWrite answers inside BUF and faults outside it. -/
theorem hostWritesLenAndBuf : Obligations.HostWritesLenAndBuf := by
  intro s rest hidle
  refine ⟨fun v hh => ?_, fun i v hh hi => ?_, fun i v hh hi => ?_⟩ <;> rw [step_idle_cons s _ rest hidle hh]
  · rfl
  · exact ⟨_, bufWrite_of_lt _ _ v hi, rfl, fun j => Memory.read_write s.buf _ j v⟩
  · exact bufWrite_of_ge _ _ v (Nat.not_lt.2 hi)

/-! ## Reads -/

/-- The results are readable when the block is idle and DONE = 1 (10_state.md R54). -/
theorem resultsReadable_iff (s : State) : resultsReadable s = true ↔ s.st = .idle ∧ s.status.done = true := by
  simp [resultsReadable, busy]

/-- Settles O45: the three reads share the guard `resultsReadable`; a written entry of BUF in range answers its byte. -/
theorem resultsAreReadWhenDone : Obligations.ResultsAreReadWhenDone := by
  intro s i
  refine ⟨rfl, fun hidle hdone => ?_, fun hclosed => ?_⟩
  · have hr : resultsReadable s = true := (resultsReadable_iff s).2 ⟨hidle, hdone⟩
    simp only [hostReadRdata, hostReadPfinfo, hostReadBuf, hr, if_true, true_and]
    exact fun hi v hv => (bufRead_next_iff s i.toNat v).2 ⟨hi, hv⟩
  · have hr : resultsReadable s = false := by
      rw [← Bool.not_eq_true, resultsReadable_iff]
      rintro ⟨hidle, hdone⟩
      obtain hst | hd := hclosed
      · exact hst hidle
      · simp [hd] at hdone
    simp [hostReadRdata, hostReadPfinfo, hostReadBuf, hr]

/-! ## Reset -/

theorem statusWord_resetOf (c : Config) : statusWord (State.resetOf c) = 0 := by
  simp [statusWord, busy, State.resetOf, Status.reset, Phase.code]

/-- Settles O46: each register of `State.resetOf` as R57 lists it, and BUF empty. -/
theorem resetValues : Obligations.ResetValues := by
  intro c
  exact ⟨rfl, rfl, rfl, rfl, Memory.read_nil, rfl, rfl, statusWord_resetOf c⟩

/-- The reset state meets the invariant: it is idle, no bit of STATUS is set and BUF is empty, so each clause about a busy block, a
set bit or a cell is met for want of one. -/
theorem invariant_resetOf (c : Config) : Invariant (State.resetOf c) where
  bufWf := rfl
  bufBelow := rfl
  openIff := rfl
  doneIdle _ := rfl
  illAlone := nofun
  errPhase := by simp [State.resetOf, Status.reset]
  errorStops _ := .inl rfl
  useqX24 := nofun
  kindFits := nofun
  indexLive := nofun
  tdIsCommand := nofun
  xbStaged := nofun
  swselCommand := nofun

/-- Settles O49: the invariant clause by clause, and the bracket of the empty trace, outside a transaction as OPEN = 0 says. -/
theorem resetMeetsTheInvariant : Obligations.ResetMeetsTheInvariant := by
  intro c
  exact ⟨invariant_resetOf c, rfl⟩

end Sys2Proof.Machine

/-! PROOF. Where the machine stops (20_memory.md R74; 10_state.md R53; 41_sequencer_fsm.md R183). `StopsOnly P x` says that `x` is never a
refusal and that `P` holds of the fault it may be. Each part of a step has one such lemma, in every state, with the causes it has
there; the invariant then rules out all but two of them. -/

namespace Sys2Proof.Machine

/-- The computation is not refused, and stops with a fault of which `P` holds, if it stops. -/
def StopsOnly {α : Type} (P : Fault → Prop) (x : Result α) : Prop :=
  match x with
  | .next _ => True
  | .fault e => P e
  | .refused _ => False

section StopsOnly

variable {α β : Type} {P Q : Fault → Prop}

@[simp] theorem stopsOnly_next (a : α) : StopsOnly P (.next a : Result α) := trivial

@[simp] theorem stopsOnly_fault (e : Fault) : StopsOnly P (.fault e : Result α) ↔ P e := Iff.rfl

@[simp] theorem stopsOnly_refused (x : Refusal) : ¬ StopsOnly P (.refused x : Result α) := id

@[simp] theorem stopsOnly_ite (c : Prop) [Decidable c] (x y : Result α) :
    StopsOnly P (if c then x else y) ↔ (c → StopsOnly P x) ∧ (¬ c → StopsOnly P y) := by
  split <;> simp [*]

@[simp] theorem stopsOnly_onOk (r : Response) (s : State) (k : Half → Result State) :
    StopsOnly P (onOk r s k) ↔ ∀ v, r = .ok v → StopsOnly P (k v) := by
  cases r <;> simp [onOk]

theorem StopsOnly.mono {x : Result α} (h : StopsOnly P x) (hPQ : ∀ e, P e → Q e) : StopsOnly Q x := by
  cases x with
  | next a => trivial
  | fault e => exact hPQ e h
  | refused x => exact h

/-- A computation `y` that goes on from the value of `x` and passes on its stops. -/
theorem StopsOnly.andThen {x : Result α} {y : Result β} (h : StopsOnly P x) (hnext : ∀ a, x = .next a → StopsOnly P y)
    (hfault : ∀ e, x = .fault e → y = .fault e) : StopsOnly P y := by
  cases x with
  | next a => exact hnext a rfl
  | fault e => rwa [hfault e rfl]
  | refused x => exact h.elim

end StopsOnly

/-! ## The reads and writes of BUF and XB -/

/-- BufRead of an entry in range that no one has written (20_memory.md R74). -/
theorem bufRead_unwritten {s : State} {i : Nat} (hi : i < s.cfg.maxlen) (hread : Memory.read s.buf i = none) :
    bufRead s i = .fault (.bufUnwritten i) := by
  simp [bufRead, hi, hread]

theorem stopsOnly_bufRead (s : State) (i : Nat) :
    StopsOnly (fun e => (e = .bufUnwritten i ∧ Memory.read s.buf i = none) ∨ s.cfg.maxlen ≤ i) (bufRead s i) := by
  by_cases hi : i < s.cfg.maxlen
  · cases hread : Memory.read s.buf i with
    | none => simp [bufRead_unwritten hi hread]
    | some v => simp [(bufRead_next_iff s i v).2 ⟨hi, hread⟩]
  · simp [bufRead, hi, Nat.not_lt.1 hi]

theorem stopsOnly_bufWrite (s : State) (i : Nat) (v : Byte) :
    StopsOnly (fun e => e = .bufOutOfRange i ∧ s.cfg.maxlen ≤ i) (bufWrite s i v) := by
  simp [bufWrite]

theorem stopsOnly_xbRead (xb : Bytes3) (i : Nat) : StopsOnly (fun _ => 3 ≤ i) (xbRead xb i) := by
  match i with
  | 0 | 1 | 2 => trivial
  | i + 3 => exact Nat.le_add_left 3 i

/-! ## The host's operation -/

/-- A command never stops, so of what the host does only a write outside BUF can (10_state.md R53). -/
theorem stopsOnly_hostStep (op : HostOp) (s : State) :
    StopsOnly (fun e => ∃ i v, op = .bufWrite i v ∧ e = .bufOutOfRange i.toNat ∧ s.cfg.maxlen ≤ i.toNat) (hostStep op s) := by
  cases op with
  | issue w =>
    cases hd : decode w with
    | ok i =>
      obtain ⟨t, ht⟩ := exec_next i s
      simp [hostStep, issueWord, hd, ht]
    | illegal why => simp [hostStep, issueWord, hd]
  | setLen v => trivial
  | bufWrite i v => exact (stopsOnly_bufWrite s i.toNat v).mono fun e he => ⟨i, v, rfl, he⟩
  | reset => trivial

/-! ## The primitive step -/

/-- Why the request of a busy block can stop: the byte to send has no value or no place, or CMD has no switch mask. -/
def RequestStops (s : State) (e : Fault) : Prop :=
  (s.st = .wdata ∧ s.td.src = .buf ∧
    ((e = .bufUnwritten s.idx.toNat ∧ Memory.read s.buf s.idx.toNat = none) ∨ s.cfg.maxlen ≤ s.idx.toNat)) ∨
  (s.st = .wdata ∧ s.td.src = .xb ∧ 3 ≤ s.idx.toNat) ∨
  (s.st = .swsel ∧ opField s.cmd ≠ 0x8 ∧ opField s.cmd ≠ 0x9)

/-- Why the move on a response can stop: S_SUB has no rule for this transaction, or the byte read has no place in BUF. -/
def MoveStops (s : State) : Prop :=
  s.st = .idle ∨
  (s.st = .sub ∧ s.td.kind ≠ .wrm ∧ s.td.kind ≠ .rdm) ∨
  (s.st = .read ∧ s.td.kind ≠ .rdb ∧ s.cfg.maxlen ≤ s.idx.toNat)

theorem stopsOnly_sourceByte {s : State} (hst : s.st = .wdata) : StopsOnly (RequestStops s) (sourceByte s) := by
  cases hsrc : s.td.src <;> simp only [sourceByte, hsrc]
  case buf => exact (stopsOnly_bufRead s _).mono fun e he => .inl ⟨hst, hsrc, he⟩
  case xb => exact (stopsOnly_xbRead s.xb _).mono fun e he => .inr (.inl ⟨hst, hsrc, he⟩)

theorem stopsOnly_commandMask {s : State} (hst : s.st = .swsel) : StopsOnly (RequestStops s) (commandMask s.cmd) := by
  simp +contextual [commandMask, RequestStops, hst]

theorem stopsOnly_request {s : State} (hb : s.st ≠ .idle) : StopsOnly (RequestStops s) (request s) := by
  cases hst : s.st <;> simp only [request, hst]
  case idle => exact absurd hst hb
  case wdata => exact (stopsOnly_sourceByte hst).andThen (fun d hx => by simp [hx]) (fun e hx => by simp [hx])
  case swsel => exact (stopsOnly_commandMask hst).andThen (fun m hx => by simp [hx]) (fun e hx => by simp [hx])
  all_goals trivial

theorem stopsOnly_afterAddr {P : Fault → Prop} (r : Response) (s : State) : StopsOnly P (afterAddr r s) := by
  cases hk : s.td.kind <;> simp [afterAddr, hk]

theorem stopsOnly_afterSub {r : Response} {s : State} (hst : s.st = .sub) :
    StopsOnly (fun _ => MoveStops s) (afterSub r s) := by
  cases hk : s.td.kind <;> simp [afterSub, MoveStops, hst, hk]

theorem stopsOnly_storeRead (v : Byte) {s : State} (hst : s.st = .read) :
    StopsOnly (fun _ => MoveStops s) (storeRead v s) := by
  by_cases hk : s.td.kind = .rdb
  · simp [storeRead, hk]
  · simp only [storeRead, hk, if_false]
    exact (stopsOnly_bufWrite s _ v).mono fun e he => .inr (.inr ⟨hst, hk, he.2⟩)

theorem stopsOnly_afterRead {r : Response} {s : State} (hst : s.st = .read) :
    StopsOnly (fun _ => MoveStops s) (afterRead r s) := by
  simp only [afterRead, stopsOnly_onOk]
  exact fun v _ => (stopsOnly_storeRead (dataOf v) hst).andThen (fun t hx => by simp [hx]) (fun e hx => by simp [hx])

theorem stopsOnly_respond (r : Response) (s : State) : StopsOnly (fun _ => MoveStops s) (respond r s) := by
  cases hst : s.st <;> simp only [respond, hst]
  case idle => exact .inl hst
  case start => cases r <;> simp [afterStart]
  case addr => exact stopsOnly_afterAddr r s
  case sub => exact stopsOnly_afterSub hst
  case read => exact stopsOnly_afterRead hst
  all_goals simp [afterData, afterWdata, afterRestart, afterAddrR, afterStop, afterSwsel]

/-- A request that stops is the step's own stop, once the environment would answer. -/
theorem step_request_fault {s : State} {e : Fault} (hb : s.st ≠ .idle) (ha : s.answers ≠ []) (h : request s = .fault e) :
    step s = .fault e := by
  obtain ⟨r, rest, ha⟩ := List.exists_cons_of_ne_nil ha
  rw [step_of_busy s hb, primitiveStep, whenAnswered_cons s _ r rest ha, h]

/-! ## The step -/

/-- Why a step can stop: the host writes outside BUF, or the request or the move of a primitive step stops. -/
def StepStops (s : State) (e : Fault) : Prop :=
  (∃ i v rest, e = .bufOutOfRange i.toNat ∧ s.st = .idle ∧ s.host = .bufWrite i v :: rest ∧ s.cfg.maxlen ≤ i.toNat) ∨
  (s.st ≠ .idle ∧ (RequestStops s e ∨ MoveStops s))

/-- Every stop of a step, in any state; none is a refusal. -/
theorem stopsOnly_step (s : State) : StopsOnly (StepStops s) (step s) := by
  by_cases hidle : s.st = .idle
  · cases hh : s.host with
    | nil => simp [step_idle_nil s hidle hh]
    | cons op rest =>
      rw [step_idle_cons s op rest hidle hh]
      refine (stopsOnly_hostStep op _).mono ?_
      rintro e ⟨i, v, rfl, he, hi⟩
      exact .inl ⟨i, v, rest, he, hidle, hh, hi⟩
  · rw [step_of_busy s hidle, primitiveStep]
    cases ha : s.answers with
    | nil => simp [whenAnswered_nil s _ ha]
    | cons r rest =>
      rw [whenAnswered_cons s _ r rest ha]
      have hrequest : StopsOnly (StepStops s) (request s) :=
        (stopsOnly_request hidle).mono fun _ he => .inr ⟨hidle, .inl he⟩
      refine hrequest.andThen (fun q hq => ?_) (fun e hq => by simp [hq])
      rw [hq]
      exact (stopsOnly_respond r (exchange q r s)).mono fun _ he => .inr ⟨hidle, .inr he⟩

/-! ## What the invariant rules out -/

/-- The OP of a word is the one its command has (30_encoding.md R104). -/
theorem opField_eq_of_decode {w : Word} {i : Instr} (h : decode w = .ok i) : opField w = opField (encode i) := by
  unfold decode at h
  split at h <;> rename_i hop
  case h_1 | h_2 | h_3 | h_4 | h_5 =>
    obtain ⟨-, -, -, rfl⟩ := (decodeE_ok_iff ..).1 h
    simp [encode, hop]
  case h_6 | h_7 | h_8 | h_9 | h_10 =>
    obtain ⟨-, -, rfl⟩ := (decodeD_ok_iff ..).1 h
    simp [encode, hop]
  case h_11 => cases h

/-- A transaction that moves bytes of BUF takes its length from LEN (30_encoding.md R103; 41_sequencer_fsm.md R163). -/
theorem descriptor_usesLen {c : Config} {len : Half} {useq : Bool} {i : Instr} {d : TD}
    (h : descriptor c len useq i = some d) (hd : d.kind = .rdm ∨ (d.kind = .wrm ∧ d.src = .buf)) :
    i.usesLen = true ∧ d.n = len := by
  cases i <;> cases h <;> simp [Instr.usesLen] at hd ⊢

/-- A transaction that sends XB has three bytes (44_adapter_exp24.md R241). -/
theorem descriptor_n_of_xb {c : Config} {len : Half} {useq : Bool} {i : Instr} {d : TD}
    (h : descriptor c len useq i = some d) (hd : d.src = .xb) : d.n = 3 := by
  cases i <;> cases h <;> simp at hd ⊢

/-- The length of a transaction on BUF fits BUF (30_encoding.md R104). -/
theorem Invariant.n_le_maxlen {s : State} (hinv : Invariant s) (ht : s.st.transacting = true)
    (hd : s.td.kind = .rdm ∨ (s.td.kind = .wrm ∧ s.td.src = .buf)) : s.td.n.toNat ≤ s.cfg.maxlen := by
  obtain ⟨i, hdecode, hdesc⟩ := hinv.tdIsCommand ht
  obtain ⟨hlen, hn⟩ := descriptor_usesLen hdesc hd
  have hwf : i.wellFormed s.cfg s.len = true := ((decodeAt_ok_iff ..).1 hdecode).2
  simp only [Instr.wellFormed, Instr.lenInRange, hlen, Bool.and_eq_true, Bool.not_true, Bool.false_or, decide_eq_true_eq] at hwf
  rw [hn]
  exact hwf.2

/-- No legal run stops at the move on a response: S_SUB is reached with WRM and RDM only, and IDX stays below the length. -/
theorem Invariant.not_moveStops {s : State} (hinv : Invariant s) (hb : s.st ≠ .idle) : ¬ MoveStops s := by
  rintro (hst | ⟨hst, hwrm, hrdm⟩ | ⟨hst, hrdb, hi⟩)
  · exact hb hst
  · have hk := hinv.kindFits (by rw [hst]; rfl)
    simp [hst, SeqState.allows, hwrm, hrdm] at hk
  · have ht : s.st.transacting = true := by rw [hst]; rfl
    have hk : s.td.kind = .rdm := by simpa [hst, SeqState.allows, hrdb] using hinv.kindFits ht
    have hidx := hinv.indexLive (.inr hst)
    have hn := hinv.n_le_maxlen ht (.inl hk)
    omega

/-- A legal run stops at a request only for an unwritten entry: IDX stays below the length, which fits BUF, or XB, and only SWSEL
and SWDES reach S_SWSEL. -/
theorem Invariant.requestStops {s : State} {e : Fault} (hinv : Invariant s) (h : RequestStops s e) :
    e = .bufUnwritten s.idx.toNat ∧ s.st = .wdata ∧ s.td.src = .buf ∧ Memory.read s.buf s.idx.toNat = none := by
  obtain ⟨hst, hsrc, ⟨he, hread⟩ | hi⟩ | ⟨hst, hsrc, hi⟩ | ⟨hst, h8, h9⟩ := h
  · exact ⟨he, hst, hsrc, hread⟩
  · have ht : s.st.transacting = true := by rw [hst]; rfl
    have hk : s.td.kind = .wrm := by simpa [hst, SeqState.allows] using hinv.kindFits ht
    have hidx := hinv.indexLive (.inl hst)
    have hn := hinv.n_le_maxlen ht (.inr ⟨hk, hsrc⟩)
    omega
  · obtain ⟨i, _, hdesc⟩ := hinv.tdIsCommand (by rw [hst]; rfl)
    have hidx := hinv.indexLive (.inl hst)
    rw [descriptor_n_of_xb hdesc hsrc] at hidx
    exact absurd hidx (Nat.not_lt.2 hi)
  · obtain ⟨ch, hd⟩ | hd := hinv.swselCommand hst
    · exact absurd (by simpa [encode] using opField_eq_of_decode hd) h8
    · exact absurd (by simpa [encode] using opField_eq_of_decode hd) h9

/-- Settles O52: every stop of a step has a cause of `StepStops`, of which the invariant leaves two. -/
theorem onlyTwoStopsExist : Obligations.OnlyTwoStopsExist := by
  refine ⟨fun s x hstep => ?_, fun s e hinv hstep => ?_⟩
  · simpa [hstep] using stopsOnly_step s
  · have hcause : StepStops s e := by simpa [hstep] using stopsOnly_step s
    obtain hhost | ⟨hb, hrequest | hmove⟩ := hcause
    · exact .inr hhost
    · exact .inl (hinv.requestStops hrequest)
    · exact absurd hmove (hinv.not_moveStops hb)

/-- Settles O27: BUF is empty after reset, BufRead of an unwritten entry faults, and S_WDATA makes that read in its request. -/
theorem unwrittenEntryFaults : Obligations.UnwrittenEntryFaults := by
  refine ⟨fun c i => Memory.read_nil i, fun s i hi hread => bufRead_unwritten hi hread, fun s hst hsrc ha hi hread => ?_⟩
  refine step_request_fault (by simp [hst]) ha ?_
  simp only [request, hst, sourceByte, hsrc, bufRead_unwritten hi hread]

end Sys2Proof.Machine

/-! PROOF. The encoding (30_encoding.md R101 to R111). The fields of a format determine the word (`word_eq_iff_fieldsE`,
`word_eq_iff_fieldsD`). So a word decodes to a command exactly if it is the command's word (`decode_ok_iff`), and matching a row of the
opcode table by its mask is a condition on the fields that the mask covers. -/

namespace Sys2Proof.Machine

/-! ## A word by its fields -/

section Fields

variable {n : Nat} {x y : BitVec n} {w v : Word} {op : BitVec 4}

/-- Two stretches that lie side by side agree exactly if the stretch they make does. -/
theorem extractLsb'_add_eq_iff (s a b : Nat) :
    x.extractLsb' s (a + b) = y.extractLsb' s (a + b) ↔
      x.extractLsb' (s + a) b = y.extractLsb' (s + a) b ∧ x.extractLsb' s a = y.extractLsb' s a := by
  constructor
  · intro h
    have hbit (i : Nat) (hi : i < a + b) : x.getLsbD (s + i) = y.getLsbD (s + i) := by
      simpa [hi] using congrArg (·.getLsbD i) h
    refine ⟨BitVec.eq_of_getLsbD_eq fun i hi => ?_, BitVec.eq_of_getLsbD_eq fun i hi => ?_⟩
    · simpa [hi, Nat.add_assoc] using hbit (a + i) (by omega)
    · simpa [hi] using hbit i (by omega)
  · rintro ⟨hhigh, hlow⟩
    rw [Nat.add_comm a b, ← BitVec.extractLsb'_append_extractLsb'_eq_extractLsb' (x := x) rfl,
      ← BitVec.extractLsb'_append_extractLsb'_eq_extractLsb' (x := y) rfl, hhigh, hlow]

theorem flagField_eq_iff : flagField w = flagField v ↔ w.extractLsb' 27 1 = v.extractLsb' 27 1 := by
  simp [flagField, BitVec.eq_of_getLsbD_eq_iff]

/-- Format E: OP, F, the reserved bits, BUS, ADDR and ARG make up the word (R101). -/
theorem word_eq_iff_fieldsE :
    w = v ↔ opField w = opField v ∧ flagField w = flagField v ∧ reservedE w = reservedE v ∧ busField w = busField v ∧
      addrField w = addrField v ∧ argField w = argField v := by
  rw [flagField_eq_iff, ← BitVec.extractLsb'_eq_self (x := w), ← BitVec.extractLsb'_eq_self (x := v), extractLsb'_add_eq_iff 0 28 4,
    extractLsb'_add_eq_iff 0 27 1, extractLsb'_add_eq_iff 0 24 3, extractLsb'_add_eq_iff 0 16 8, extractLsb'_add_eq_iff 0 8 8]
  simp [opField, reservedE, busField, addrField, argField]

/-- Format D: OP, the reserved bits and IMM24 make up the word (R102). -/
theorem word_eq_iff_fieldsD :
    w = v ↔ opField w = opField v ∧ reservedD w = reservedD v ∧ immField w = immField v := by
  rw [← BitVec.extractLsb'_eq_self (x := w), ← BitVec.extractLsb'_eq_self (x := v), extractLsb'_add_eq_iff 0 28 4,
    extractLsb'_add_eq_iff 0 24 4]
  simp [opField, reservedD, immField]

theorem encodeE_eq_iff {f : Bool} {bus addr arg : Byte} :
    encodeE op f bus addr arg = w ↔ opField w = op ∧ flagField w = f ∧ reservedE w = 0 ∧ busField w = bus ∧ addrField w = addr ∧
      argField w = arg := by
  rw [eq_comm, word_eq_iff_fieldsE]
  simp

theorem encodeD_eq_iff {imm : BitVec 24} : encodeD op imm = w ↔ opField w = op ∧ reservedD w = 0 ∧ immField w = imm := by
  rw [eq_comm, word_eq_iff_fieldsD]
  simp

/-- IMM24 of a SWSEL: the channel, and zeros above it (R102). -/
theorem immField_eq_ch_iff {ch : BitVec 3} : immField w = ch.setWidth 24 ↔ immAboveCh w = 0 ∧ chField w = ch := by
  have hparts (v : Word) : immField w = immField v ↔ immAboveCh w = immAboveCh v ∧ chField w = chField v :=
    extractLsb'_add_eq_iff 0 3 21
  simpa using hparts (encodeD 0 (ch.setWidth 24))

/-- IMM24 of an X8DRV: the byte, and zeros above it (R102). -/
theorem immField_eq_byte_iff {data : Byte} : immField w = data.setWidth 24 ↔ immAboveByte w = 0 ∧ argField w = data := by
  have hparts (v : Word) : immField w = immField v ↔ immAboveByte w = immAboveByte v ∧ argField w = argField v :=
    extractLsb'_add_eq_iff 0 8 16
  simpa using hparts (encodeD 0 (data.setWidth 24))

end Fields

/-! ## Decoding is the inverse of encoding -/

theorem encode_of_decode {w : Word} {i : Instr} (h : decode w = .ok i) : encode i = w := by
  unfold decode at h
  split at h <;> rename_i hop
  case h_1 | h_2 | h_3 | h_4 | h_5 =>
    obtain ⟨hreserved, hflag, harg, rfl⟩ := (decodeE_ok_iff ..).1 h
    exact encodeE_eq_iff.2 (by simp_all)
  case h_6 | h_7 | h_8 | h_9 | h_10 =>
    obtain ⟨hreserved, hzero, rfl⟩ := (decodeD_ok_iff ..).1 h
    exact encodeD_eq_iff.2 (by simp_all [immField_eq_ch_iff, immField_eq_byte_iff])
  case h_11 => cases h

/-- A word decodes to a command exactly if it is the command's word. -/
theorem decode_ok_iff {w : Word} {i : Instr} : decode w = .ok i ↔ encode i = w :=
  ⟨encode_of_decode, fun h => h ▸ decode_encode i⟩

/-! ## The masks of the opcode table -/

section Masks

variable {w v : Word} {op : BitVec 4}

theorem and_of_eq_allOnes {n : Nat} {x m : BitVec n} (h : m = BitVec.allOnes n) : x &&& m = x := by
  rw [h, BitVec.and_allOnes]

/-- The mask of POLL and RDB: every field but BUS and ADDR. -/
theorem and_maskFlagArg_eq_iff (hv : v = encodeE op false 0 0 0) :
    w &&& 0xFF0000FF = v ↔ opField w = op ∧ flagField w = false ∧ reservedE w = 0 ∧ argField w = 0 := by
  rw [hv, eq_comm, encodeE_eq_iff]
  simp [opField, flagField, reservedE, busField, addrField, argField, BitVec.extractLsb'_and, and_of_eq_allOnes]

/-- The mask of WRB and WRM: OP and the reserved bits. -/
theorem and_mask_eq_iff (hv : v = encodeE op false 0 0 0) : w &&& 0xF7000000 = v ↔ opField w = op ∧ reservedE w = 0 := by
  rw [hv, eq_comm, encodeE_eq_iff]
  simp [opField, flagField, reservedE, busField, addrField, argField, BitVec.extractLsb'_and, and_of_eq_allOnes]

/-- The mask of RDM: OP, F and the reserved bits. -/
theorem and_maskFlag_eq_iff (hv : v = encodeE op false 0 0 0) :
    w &&& 0xFF000000 = v ↔ opField w = op ∧ flagField w = false ∧ reservedE w = 0 := by
  rw [hv, eq_comm, encodeE_eq_iff]
  simp [opField, flagField, reservedE, busField, addrField, argField, BitVec.extractLsb'_and, and_of_eq_allOnes]

/-- The mask of SWSEL: every bit but the channel. -/
theorem and_maskAboveCh_eq_iff (hv : v = encodeD op ((0 : BitVec 3).setWidth 24)) :
    w &&& 0xFFFFFFF8 = v ↔ opField w = op ∧ reservedD w = 0 ∧ immAboveCh w = 0 := by
  rw [hv, eq_comm, encodeD_eq_iff, immField_eq_ch_iff]
  simp [opField, reservedD, immAboveCh, chField, BitVec.extractLsb'_and, and_of_eq_allOnes]

/-- The mask of X24SET: OP and the reserved bits. -/
theorem and_maskD_eq_iff (hv : v = encodeD op 0) : w &&& 0xFF000000 = v ↔ opField w = op ∧ reservedD w = 0 := by
  rw [hv, eq_comm, encodeD_eq_iff]
  simp [opField, reservedD, immField, BitVec.extractLsb'_and, and_of_eq_allOnes]

/-- The mask of X8DRV: every bit but the byte. -/
theorem and_maskAboveByte_eq_iff (hv : v = encodeD op ((0 : Byte).setWidth 24)) :
    w &&& 0xFFFFFF00 = v ↔ opField w = op ∧ reservedD w = 0 ∧ immAboveByte w = 0 := by
  rw [hv, eq_comm, encodeD_eq_iff, immField_eq_byte_iff]
  simp [opField, reservedD, immAboveByte, argField, BitVec.extractLsb'_and, and_of_eq_allOnes]

/-- A mask that covers OP selects only words with the OP of its match. -/
theorem opField_eq_of_and_eq {m : Word} (hm : opField m = 0xF) (h : w &&& m = v) : opField w = opField v := by
  have hand : opField (w &&& m) = opField w &&& opField m := BitVec.extractLsb'_and
  rw [← h, hand, hm, and_of_eq_allOnes (by decide)]

/-- Rows that differ in OP, which every mask covers: at most one selects the word. -/
theorem length_selected_le_one {rows : List (Word × Word)} (hcover : ∀ r ∈ rows, opField r.2 = 0xF)
    (hnodup : (rows.map (opField ·.1)).Nodup) : (rows.filter fun r => w &&& r.2 == r.1).length ≤ 1 := by
  set selected := rows.filter fun r => w &&& r.2 == r.1
  have hop : ∀ r ∈ selected, opField r.1 = opField w := fun r hr => by
    obtain ⟨hmem, hmatch⟩ := List.mem_filter.1 hr
    exact (opField_eq_of_and_eq (hcover r hmem) (beq_iff_eq.1 hmatch)).symm
  have hconst : selected.map (opField ·.1) = List.replicate selected.length (opField w) :=
    List.eq_replicate_iff.2 ⟨List.length_map .., List.forall_mem_map.2 hop⟩
  have hsub : (selected.map (opField ·.1)).Nodup := hnodup.sublist (List.filter_sublist.map _)
  rwa [hconst, List.nodup_replicate] at hsub

/-- No command has one of the six free OP values. -/
theorem opField_encode_not_free (i : Instr) : opField (encode i) ∉ [0x0#4, 0x6#4, 0x7#4, 0xD#4, 0xE#4, 0xF#4] := by
  cases i <;> simp [encode]

end Masks

/-! ## The conditions beyond the encoding -/

section Conditions

variable {c : Config} {len : Half} {w : Word} {i : Instr} {bus : Byte}

theorem wellFormed_iff :
    i.wellFormed c len = true ↔ (∀ bus ∈ i.bus?, bus.toNat < c.nbus) ∧ (i.usesLen = true → len.toNat ≤ c.maxlen) := by
  cases i <;> simp [Instr.wellFormed, Instr.busInRange, Instr.lenInRange, Instr.bus?, Instr.usesLen]

theorem wellFormed_eq_false_iff :
    i.wellFormed c len = false ↔ (∃ bus ∈ i.bus?, c.nbus ≤ bus.toNat) ∨ (i.usesLen = true ∧ c.maxlen < len.toNat) := by
  simp only [← Bool.not_eq_true, wellFormed_iff, not_and_or, not_forall, not_lt, not_le, exists_prop]

/-- POLL, WRB, RDB. -/
theorem wellFormed_iff_bus (hbus : i.bus? = some bus) (hlen : i.usesLen = false) :
    i.wellFormed c len = true ↔ bus.toNat < c.nbus := by
  simp [wellFormed_iff, hbus, hlen]

/-- WRM, RDM. -/
theorem wellFormed_iff_bus_len (hbus : i.bus? = some bus) (hlen : i.usesLen = true) :
    i.wellFormed c len = true ↔ bus.toNat < c.nbus ∧ len.toNat ≤ c.maxlen := by
  simp [wellFormed_iff, hbus, hlen]

/-- The commands of format D. -/
theorem wellFormed_of_no_bus (hbus : i.bus? = none) (hlen : i.usesLen = false) : i.wellFormed c len = true := by
  simp [wellFormed_iff, hbus, hlen]

/-- The words `decodeAt` rejects are those that decode to no well-formed command. -/
theorem decodeAt_illegal_iff :
    (∃ why, decodeAt c len w = .illegal why) ↔ ∀ i, decode w = .ok i → i.wellFormed c len = false := by
  constructor
  · rintro ⟨why, hillegal⟩ i hd
    by_contra hwf
    have hok := (decodeAt_ok_iff c len w i).2 ⟨hd, Bool.eq_true_of_not_eq_false hwf⟩
    rw [hillegal] at hok
    cases hok
  · intro hall
    cases hat : decodeAt c len w with
    | illegal why => exact ⟨why, rfl⟩
    | ok i =>
      obtain ⟨hd, hwf⟩ := (decodeAt_ok_iff c len w i).1 hat
      exact absurd hwf (by simp [hall i hd])

theorem decodeAt_illegal_iff_of_decodeE {flagAllowed argAllowed : Bool} (h : decode w = decodeE w flagAllowed argAllowed i) :
    (∃ why, decodeAt c len w = .illegal why) ↔
      reservedE w ≠ 0 ∨ (flagAllowed = false ∧ flagField w = true) ∨ (argAllowed = false ∧ argField w ≠ 0) ∨
        i.wellFormed c len = false := by
  simp only [decodeAt_illegal_iff, h, decodeE_ok_iff]
  grind

theorem decodeAt_illegal_iff_of_decodeD {zero : Bool} (h : decode w = decodeD w zero i) :
    (∃ why, decodeAt c len w = .illegal why) ↔ reservedD w ≠ 0 ∨ zero = false ∨ i.wellFormed c len = false := by
  simp only [decodeAt_illegal_iff, h, decodeD_ok_iff]
  grind

/-- Whether the word itself is illegal or its bus or LEN is out of range, its issue has the one effect of 30_encoding.md R108. -/
theorem issueWord_of_decodeAt_illegal {s : State} {why : Illegal} (h : decodeAt s.cfg s.len w = .illegal why) :
    issueWord w s = .next (illegalCommand s) := by
  have hwf := decodeAt_illegal_iff.1 ⟨why, h⟩
  cases hd : decode w with
  | ok i => rw [issueWord, hd]; exact exec_illFormed i s (hwf i hd)
  | illegal _ => rw [issueWord, hd]

end Conditions

/-! ## The statements -/

/-- Settles O1: the word decodes to the command, which meets the conditions beyond the encoding. -/
theorem decodeOfEncodeIsTheCommand : Obligations.DecodeOfEncodeIsTheCommand := fun c len i hwf =>
  (decodeAt_ok_iff c len (encode i) i).2 ⟨decode_encode i, hwf⟩

/-- Settles O2: what `decodeAt` answers, `decode` answers. -/
theorem encodeOfDecodeIsTheWord : Obligations.EncodeOfDecodeIsTheWord := fun c len w i h =>
  encode_of_decode ((decodeAt_ok_iff c len w i).1 h).1

/-- Settles O5: each example word is the word of the command beside it. -/
theorem specExampleWordsDecode : Obligations.SpecExampleWordsDecode := by
  refine ⟨?_, ?_, ?_, ?_, ?_, ?_, ?_, ?_, ?_, ?_, ?_, ?_⟩ <;> exact decode_ok_iff.2 (by decide)

/-- Settles O3: both sides of a row say the same of the fields of the word, no command has a free OP, and the rows differ in OP, which
every mask covers. -/
theorem decodeFollowsTheOpcodeTable : Obligations.DecodeFollowsTheOpcodeTable := by
  intro c len w
  refine ⟨fun bus addr => ?poll, fun f bus addr data => ?wrb, fun bus addr => ?rdb, fun f bus addr sub => ?wrm,
    fun bus addr sub => ?rdm, fun ch => ?swsel, ?swdes, fun value => ?x24set, fun data => ?x8drv, ?x8sns, fun hfree i h => ?free,
    length_selected_le_one (by simp [opField]) (by decide)⟩
  case free =>
    rw [decodeAt_ok_iff, decode_ok_iff] at h
    obtain ⟨rfl, -⟩ := h
    exact opField_encode_not_free i hfree
  all_goals rw [decodeAt_ok_iff, decode_ok_iff, encode]
  case poll =>
    rw [encodeE_eq_iff, and_maskFlagArg_eq_iff (v := 0x10000000) (op := 0x1) rfl, wellFormed_iff_bus rfl rfl, ← busField, ← addrField]
    tauto
  case wrb =>
    rw [encodeE_eq_iff, and_mask_eq_iff (v := 0x20000000) (op := 0x2) rfl, wellFormed_iff_bus rfl rfl, ← flagField, ← busField,
      ← addrField, ← argField]
    tauto
  case rdb =>
    rw [encodeE_eq_iff, and_maskFlagArg_eq_iff (v := 0x30000000) (op := 0x3) rfl, wellFormed_iff_bus rfl rfl, ← busField, ← addrField]
    tauto
  case wrm =>
    rw [encodeE_eq_iff, and_mask_eq_iff (v := 0x40000000) (op := 0x4) rfl, wellFormed_iff_bus_len rfl rfl, ← flagField, ← busField,
      ← addrField, ← argField]
    tauto
  case rdm =>
    rw [encodeE_eq_iff, and_maskFlag_eq_iff (v := 0x50000000) (op := 0x5) rfl, wellFormed_iff_bus_len rfl rfl, ← busField,
      ← addrField, ← argField]
    tauto
  all_goals rw [and_iff_left (wellFormed_of_no_bus rfl rfl)]
  case swsel =>
    rw [encodeD_eq_iff, immField_eq_ch_iff, and_maskAboveCh_eq_iff (v := 0x80000000) (op := 0x8) rfl, ← chField]
    tauto
  case x24set =>
    rw [encodeD_eq_iff, and_maskD_eq_iff (v := 0xA0000000) (op := 0xA) rfl, ← immField]
    tauto
  case x8drv =>
    rw [encodeD_eq_iff, immField_eq_byte_iff, and_maskAboveByte_eq_iff (v := 0xB0000000) (op := 0xB) rfl, ← argField]
    tauto
  case swdes | x8sns =>
    rw [and_of_eq_allOnes (m := 0xFFFFFFFF) rfl]
    exact eq_comm

/-- Settles O4, by the OP of the word: a row of either format rejects what its fields, its bus or LEN exclude, and any other OP is one
of the six free values. -/
theorem illegalWordsAreExactlyTheListed : Obligations.IllegalWordsAreExactlyTheListed := by
  intro c len w
  refine ⟨fun ch _ => Nat.le_of_lt_succ ch.isLt, ?_⟩
  rw [← opField, ← flagField, ← reservedE, ← busField, ← argField, ← reservedD, ← immField, ← immAboveCh, ← immAboveByte]
  have hrow := decode.eq_def w
  split at hrow <;> rename_i hop
  case h_1 | h_2 | h_3 | h_4 | h_5 =>
    simp [decodeAt_illegal_iff_of_decodeE hrow, hop, wellFormed_eq_false_iff, Instr.bus?, Instr.usesLen]
  case h_6 | h_7 | h_8 | h_9 | h_10 =>
    simp [decodeAt_illegal_iff_of_decodeD hrow, hop, wellFormed_eq_false_iff, Instr.bus?, Instr.usesLen]
  case h_11 =>
    refine iff_of_true ⟨.reservedOpcode, by simp [decodeAt, hrow]⟩ (.inl ?_)
    generalize opField w = op at *
    decide +revert

/-- Settles O6: the masks of SWSEL and SWDES are read back from the fields of the encoded word, the lanes bit by bit. -/
theorem operandsAreAssembledAsTheTableSays : Obligations.OperandsAreAssembledAsTheTableSays := by
  refine ⟨fun _ => rfl, fun _ => rfl, by decide, fun ch => ?swsel, ?swdes, fun value k j hj => ?lane, fun i n => ?notLast,
    fun i n => ?isLast⟩
  case swsel => simp [commandMask, encode, oneHot]
  case swdes => simp [commandMask, encode]
  case lane => simp [lane, hj]
  case notLast => exact decide_eq_true_iff
  case isLast => exact decide_eq_true_iff

/-- Settles O12: the idle block issues the word, with the illegal word's effect. -/
theorem illegalWordOnlyReportsItself : Obligations.IllegalWordOnlyReportsItself := by
  intro s w rest why hidle hhost hillegal
  refine ⟨illegalCommand { s with host := rest }, ?_, rfl, rfl⟩
  rw [step_idle_cons s _ rest hidle hhost]
  exact issueWord_of_decodeAt_illegal hillegal

/-- Settles O13, by `exec_illFormed`. -/
theorem illFormedCommandIsIllegal : Obligations.IllFormedCommandIsIllegal := exec_illFormed

end Sys2Proof.Machine

/-! PROOF. The primitive port (40_primitive_port.md R140, R148, R149, R153). The trace and the answers to come are the port's side of the
state: the request of a primitive step takes one answer and adds one exchange, and neither the host's operation nor the move on the
response touches them. -/

namespace Sys2Proof.Machine

/-! ## The request message -/

/-- The codes 6 and 7 are never sent (40_primitive_port.md R149). -/
theorem Request.pkind_toNat_le (q : Request) : q.pkind.toNat ≤ 5 := by
  obtain ⟨bus, p⟩ := q
  cases p <;> simp [Request.pkind]

/-- Settles O8: PKIND and an empty PARG by their definitions, a PARG of two fields by taking its halves apart. -/
theorem requestMessageLayout : Obligations.RequestMessageLayout := by
  intro bus
  refine ⟨fun p => ⟨rfl, Request.pkind_toNat_le _⟩, ⟨rfl, rfl⟩, ⟨rfl, rfl⟩, ⟨rfl, rfl⟩, fun b => ⟨rfl, ?writeLow, ?writeHigh⟩,
    fun k => ⟨rfl, ?readLow, ?readHigh⟩, fun a m => ⟨rfl, ?swselHigh, ?swselLow⟩⟩
  case readLow =>
    simp only [Request.parg, BitVec.getLsbD_append]
    simp
  case writeLow | swselLow => exact BitVec.extractLsb'_append_eq_right
  case writeHigh | readHigh | swselHigh => exact BitVec.extractLsb'_append_eq_left

/-! ## A request without an answer -/

/-- A state that steps to itself is the only one its runs lead to. -/
theorem runs_iff_of_step_self {s : State} (h : step s = .next s) (k : Nat) (t : State) : Runs k s t ↔ t = s := by
  induction k with
  | zero => exact eq_comm
  | succ k ih => simp [Runs, h, ih]

/-- Settles O26: the step without an answer leads back to the same busy state. -/
theorem unansweredRequestWaitsForEver : Obligations.UnansweredRequestWaitsForEver := by
  intro s k hb ha
  have hruns := runs_iff_of_step_self (step_unanswered s hb ha) k
  exact ⟨(hruns s).2 rfl, fun t => (hruns t).1, by rw [statusWord_busy, busy_iff]; exact hb⟩

/-! ## What leaves the port alone -/

/-- Between `s` and `t` nothing was requested and no answer was taken. -/
def SamePort (s t : State) : Prop := t.trace = s.trace ∧ t.answers = s.answers

/-- An issue either reports an illegal word or sets up the latched command (41_sequencer_fsm.md R162). -/
theorem issue_cases {i : Instr} {legal : Bool} {setUp : State → State} {s t : State} (h : issue i legal setUp s = .next t) :
    t = illegalCommand s ∨ t = setUp (latchCommand i s) := by
  cases legal with
  | false => cases h; exact .inl rfl
  | true => cases h; exact .inr rfl

/-- A BufWrite that answers has written that one byte (10_state.md R53). -/
theorem eq_of_bufWrite_next {i : Nat} {v : Byte} {s t : State} (h : bufWrite s i v = .next t) :
    t = { s with buf := Memory.write s.buf i v } := by
  by_cases hi : i < s.cfg.maxlen
  · rw [bufWrite_of_lt s i v hi] at h
    cases h; rfl
  · rw [bufWrite_of_ge s i v hi] at h
    cases h

/-- The issue of a command requests nothing (41_sequencer_fsm.md R162, R163). -/
theorem samePort_exec {i : Instr} {s t : State} (h : exec i s = .next t) : SamePort s t := by
  cases i <;>
    simp only [exec, execPoll, execWrb, execRdb, execWrm, execRdm, execSwsel, execSwdes, execX24set, execX8drv, execX8sns] at h <;>
    obtain rfl | rfl := issue_cases h <;> exact ⟨rfl, rfl⟩

/-- No host operation and no reset uses the port (10_state.md R53, R57). -/
theorem samePort_hostStep {op : HostOp} {s t : State} (h : hostStep op s = .next t) : SamePort s t := by
  cases op with
  | issue w =>
    simp only [hostStep, issueWord] at h
    split at h
    · exact samePort_exec h
    · cases h; exact ⟨rfl, rfl⟩
  | setLen v => cases h; exact ⟨rfl, rfl⟩
  | bufWrite i v =>
    obtain rfl := eq_of_bufWrite_next h
    exact ⟨rfl, rfl⟩
  | reset => cases h; exact ⟨rfl, rfl⟩

/-- The move on a response takes no further answer. -/
theorem move_answers {r : Response} {s t : State} (h : Move r s t) : t.answers = s.answers := by
  cases h
  case lastRead hs _ => rw [hs.eq_update]; rfl
  case byteRead hs _ => rw [hs.eq_update]; rfl
  all_goals simp [recordIfFault_eq]

theorem move_samePort {r : Response} {s t : State} (h : Move r s t) : SamePort s t := ⟨move_trace h, move_answers h⟩

/-- Settles O58: a step without a request leaves the port alone; a request and its answer make the one exchange, which the move on the
response keeps. -/
theorem oneRequestOneResponse : Obligations.OneRequestOneResponse := by
  intro s t hstep
  obtain ⟨_, _, rfl⟩ | ⟨op, rest, _, _, hop⟩ | ⟨_, _, rfl⟩ | ⟨q, r, rest, hb, ha, hq, hr⟩ := step_cases hstep
  · exact .inl ⟨rfl, rfl⟩
  · exact .inl (samePort_hostStep hop :)
  · exact .inl ⟨rfl, rfl⟩
  · obtain ⟨htrace, hanswers⟩ := move_samePort (respond_move hr)
    refine .inr ⟨q.prim, r, hb, ?_, ?_⟩
    · rw [hanswers, exchange_answers, ha, List.tail_cons]
    · rw [htrace, exchange_trace, ← request_bus hq]

end Sys2Proof.Machine

/-! PROOF. Every step keeps `Invariant` (41_sequencer_fsm.md R163, R181, R186). The moves on a response have one lemma for each register
the invariant speaks of, and the transaction that runs one lemma of its own (`move_transaction`); an issue has `Issued`, which says for
all ten commands at once what R163 sets. -/

namespace Sys2Proof.Machine

/-! ## The moves, register by register -/

section Moves

variable {r : Response} {s t : State}

/-- A byte read leaves BUF alone or writes inside it (41_sequencer_fsm.md R178). -/
theorem Stores.buf_cases {v : Byte} (h : Stores v s t) :
    t.buf = s.buf ∨ (s.idx.toNat < s.cfg.maxlen ∧ t.buf = Memory.write s.buf s.idx.toNat v) := by
  obtain ⟨_, rfl⟩ | ⟨_, hi, rfl⟩ := h
  · exact .inl rfl
  · exact .inr ⟨hi, rfl⟩

theorem move_buf_cases (h : Move r s t) :
    t.buf = s.buf ∨ (s.idx.toNat < s.cfg.maxlen ∧ ∃ v, t.buf = Memory.write s.buf s.idx.toNat v) := by
  cases h
  case lastRead hs _ => exact hs.buf_cases.imp_right fun ⟨hi, hw⟩ => ⟨hi, _, hw⟩
  case byteRead hs _ => exact hs.buf_cases.imp_right fun ⟨hi, hw⟩ => ⟨hi, _, hw⟩
  all_goals exact .inl (by simp [recordIfFault_eq])

/-- An unmet acknowledge is met between Start and Stop (60_exceptions.md R263). -/
theorem NackRaises.inTransaction {p : Phase} (h : NackRaises s p) : s.st.inTransaction = true := by
  obtain ⟨_, h, _⟩ | ⟨_, h, _⟩ | ⟨_, h, _⟩ | ⟨_, h⟩ | ⟨_, h, _⟩ | ⟨_, h⟩ := h <;> rw [h] <;> rfl

/-- The states whose fault is that of 41_sequencer_fsm.md R173 lie between Start and Stop, S_STOP excepted. -/
theorem inTransaction_of_faulting
    (h : s.st = .addr ∨ s.st = .data ∨ s.st = .sub ∨ s.st = .wdata ∨ s.st = .restart ∨ s.st = .addrR ∨ s.st = .read) :
    s.st.inTransaction = true ∧ s.st ≠ .stop := by
  obtain h | h | h | h | h | h | h := h <;> simp [h, SeqState.inTransaction]

theorem SeqState.transacting_of_inTransaction {x : SeqState} (h : x.inTransaction = true) : x.transacting = true := by
  simp [SeqState.transacting, h]

/-- OPEN says of the state after a move what it said of the state before (10_state.md R44). -/
theorem move_openIff (h : Move r s t) (hopen : s.status.busOpen = s.st.inTransaction) :
    t.status.busOpen = t.st.inTransaction := by
  cases h
  case fault hst => exact hopen.trans (inTransaction_of_faulting hst).1
  case nack hn => exact hopen.trans hn.inTransaction
  case lastRead hst hs _ => rw [hs.eq_update]; simp [hopen, hst, SeqState.inTransaction]
  case byteRead hst hs _ => rw [hs.eq_update]; simp [hopen, hst, SeqState.inTransaction]
  all_goals simp [*, recordIfFault_eq, SeqState.inTransaction]

/-- DONE is set by the end of a command only (10_state.md R55). -/
theorem move_done (h : Move r s t) :
    (t.st = .idle ∧ t.status.done = true) ∨ (t.st ≠ .idle ∧ t.status.done = s.status.done) := by
  cases h
  case startAbandoned | stopped | selected => exact .inl ⟨rfl, rfl⟩
  case lastRead hs _ => rw [hs.eq_update]; simp
  case byteRead hst hs _ => rw [hs.eq_update]; simp [hst]
  all_goals simp [recordIfFault_eq, *]

/-- ERR and PHASE are set together, on the way to S_STOP (60_exceptions.md R262). -/
theorem move_err (h : Move r s t) :
    (t.status.err = s.status.err ∧ t.status.phase = s.status.phase) ∨ (t.status.err = true ∧ t.status.phase ≠ .none) := by
  cases h
  case nack hn =>
    obtain ⟨rfl, _⟩ | ⟨rfl, _⟩ | ⟨rfl, _⟩ | ⟨rfl, _⟩ | ⟨rfl, _⟩ | ⟨rfl, _⟩ := hn <;> exact .inr ⟨rfl, nofun⟩
  case lastRead hs _ => rw [hs.eq_update]; exact .inl ⟨rfl, rfl⟩
  case byteRead hs _ => rw [hs.eq_update]; exact .inl ⟨rfl, rfl⟩
  all_goals exact .inl (by simp [recordIfFault_eq])

/-- A move to any state but S_STOP and IDLE finds and leaves no error: it is a row of a good answer, or the second start of X24SET, which
asks for ERR = 0 and PF = 0 (41_sequencer_fsm.md R176; 60_exceptions.md R272). -/
theorem move_errorStops (h : Move r s t) (hs : s.status.err = true ∨ s.status.pf = true → s.st = .stop)
    (ht : t.status.err = true ∨ t.status.pf = true) : t.st = .idle ∨ t.st = .stop := by
  cases h
  case again hc => simp_all [chains]
  case byteRead hst hstores _ => rw [hstores.eq_update] at ht; simp_all
  all_goals simp_all

/-- Only an issue leads to S_SWSEL (41_sequencer_fsm.md R163). -/
theorem move_st_ne_swsel (h : Move r s t) : t.st ≠ .swsel := by
  cases h
  case byteRead hst hs _ => rw [hs.eq_update]; simp [hst]
  all_goals simp [*]

/-- Only an issue opens a first transaction (41_sequencer_fsm.md R163). -/
theorem move_transacting (h : Move r s t) (ht : t.st.transacting = true) : s.st.transacting = true := by
  cases h
  case startAbandoned | stopped | selected => cases ht
  case fault hst => exact SeqState.transacting_of_inTransaction (inTransaction_of_faulting hst).1
  case nack hn => exact SeqState.transacting_of_inTransaction hn.inTransaction
  all_goals simp [*, SeqState.transacting, SeqState.inTransaction]

/-- Either the transaction goes on as it was set up, or the second one of X24SET opens (41_sequencer_fsm.md R176). -/
theorem move_transaction (h : Move r s t) :
    (t.td = s.td ∧ t.xb = s.xb ∧ t.status.useq = s.status.useq) ∨
      (s.st = .stop ∧ t.st = .start ∧ opField s.cmd = 0xA ∧ s.status.useq = false ∧ t.status.useq = true ∧
        t.td = { s.td with arg := s.cfg.x24OutSub } ∧ t.xb = wireBytes s.cfg.x24Lanes (immField s.cmd)) := by
  cases h
  case again hst hc => simp_all [chains, recordIfFault_eq]
  case lastRead hs _ => rw [hs.eq_update]; exact .inl ⟨rfl, rfl, rfl⟩
  case byteRead hs _ => rw [hs.eq_update]; exact .inl ⟨rfl, rfl, rfl⟩
  all_goals exact .inl (by simp [recordIfFault_eq])

/-- The rows of 41_sequencer_fsm.md R181 lead from pairs of ST and TD.KIND that have a row to such pairs. -/
theorem move_allows (h : Move r s t) (hfit : s.st.allows s.td.kind = true) : t.st.allows t.td.kind = true := by
  cases h
  case byteRead hs _ => rw [hs.eq_update]; simpa using hfit
  case addrToSub hk => simpa [SeqState.allows] using hk
  all_goals simp_all [SeqState.allows]

end Moves

/-! ## The invariant along a move -/

section Step

variable {r : Response} {s t : State}

/-- The inputs, the trace and the counter of free values are no registers: the invariant does not speak of them. -/
theorem Invariant.withInputs (h : Invariant s) (host : List HostOp) (answers : List Response) (trace : List Exchange) (free : Nat) :
    Invariant { s with host := host, answers := answers, trace := trace, free := free } :=
  { h with }

theorem Invariant.after_exchange (h : Invariant s) (q : Request) (r : Response) : Invariant (exchange q r s) :=
  h.withInputs s.host s.answers.tail (s.trace ++ [Exchange.mk q r]) s.free

/-- The pair of ST and TD.KIND has a row, in a transaction and outside (41_sequencer_fsm.md R181). -/
theorem Invariant.allows (h : Invariant s) : s.st.allows s.td.kind = true := by
  cases hst : s.st
  case idle | swsel => rfl
  all_goals rw [← hst]; exact h.kindFits (by rw [hst]; rfl)

/-- RDB reads one byte (41_sequencer_fsm.md R163). -/
theorem descriptor_n_of_rdb {c : Config} {len : Half} {useq : Bool} {i : Instr} {d : TD}
    (h : descriptor c len useq i = some d) (hd : d.kind = .rdb) : d.n = 1 := by
  cases i <;> cases h <;> simp at hd ⊢

/-- The command with OP = X24SET is X24SET (30_encoding.md R104). -/
theorem eq_x24set_of_opField {w : Word} {i : Instr} (h : decode w = .ok i) (hop : opField w = 0xA) : ∃ value, i = .x24set value := by
  rw [opField_eq_of_decode h] at hop
  cases i <;> simp [encode] at hop ⊢

/-- The second transaction of X24SET differs from the first in the sub-address alone (44_adapter_exp24.md R242). -/
theorem descriptor_second {c : Config} {len : Half} {i : Instr} {d : TD} (hi : ∃ value, i = .x24set value)
    (h : descriptor c len false i = some d) : descriptor c len true i = some { d with arg := c.x24OutSub } := by
  obtain ⟨value, rfl⟩ := hi
  cases h; rfl

theorem Invariant.move_indexLive (hinv : Invariant s) (h : Move r s t) (ht : t.st = .wdata ∨ t.st = .read) :
    t.idx.toNat < t.td.n.toNat := by
  cases h
  case addrToRead hst hk =>
    obtain ⟨i, _, hdesc⟩ := hinv.tdIsCommand (by rw [hst]; rfl)
    simp [descriptor_n_of_rdb hdesc hk]
  case subToWdata hn => simpa [BitVec.toNat_eq, Nat.pos_iff_ne_zero] using hn
  case addrRToRead hn => simpa [BitVec.toNat_eq, Nat.pos_iff_ne_zero] using hn
  case byteSent hst hl =>
    have hi := hinv.indexLive (.inl hst)
    simp [isLast] at hl ⊢
    omega
  case byteRead hst hs hl =>
    have hi := hinv.indexLive (.inr hst)
    rw [hs.eq_update]
    simp [isLast] at hl ⊢
    omega
  all_goals simp at ht

theorem Invariant.move_tdIsCommand (hinv : Invariant s) (h : Move r s t) (ht : t.st.transacting = true) :
    ∃ i, decodeAt t.cfg t.len t.cmd = .ok i ∧ descriptor t.cfg t.len t.status.useq i = some t.td := by
  obtain ⟨i, hdecode, hdesc⟩ := hinv.tdIsCommand (move_transacting h ht)
  obtain ⟨hcmd, hlen, hcfg, -⟩ := move_sameFixed h
  refine ⟨i, by rw [hcfg, hlen, hcmd, hdecode], ?_⟩
  rw [hcfg, hlen]
  obtain ⟨htd, -, huseq⟩ | ⟨-, -, hop, hfirst, hsecond, htd, -⟩ := move_transaction h
  · rw [htd, huseq, hdesc]
  · rw [hfirst] at hdesc
    rw [hsecond, htd]
    exact descriptor_second (eq_x24set_of_opField ((decodeAt_ok_iff ..).1 hdecode).1 hop) hdesc

theorem Invariant.move_xbStaged (hinv : Invariant s) (h : Move r s t) (ht : t.st.transacting = true) (hsrc : t.td.src = .xb) :
    t.xb = staging t.cfg t.status.useq t.cmd := by
  obtain ⟨hcmd, -, hcfg, -⟩ := move_sameFixed h
  rw [hcmd, hcfg]
  obtain ⟨htd, hxb, huseq⟩ | ⟨-, -, -, -, hsecond, -, hxb⟩ := move_transaction h
  · rw [hxb, huseq]
    exact hinv.xbStaged (move_transacting h ht) (htd ▸ hsrc)
  · rw [hxb, hsecond]; rfl

/-- A move from a busy state keeps the invariant: ERR, PF and ILL are as before or the state allows them, and TD and XB are as set up or
those of the second transaction. -/
theorem Invariant.move (hinv : Invariant s) (hb : s.st ≠ .idle) (h : Move r s t) : Invariant t := by
  obtain ⟨hcmd, -, hcfg, -, hill, -⟩ := move_sameFixed h
  have hrunning : s.status.done = false := Bool.eq_false_iff.2 fun hd => hb (hinv.doneIdle hd)
  have hlegal : s.status.ill = false := Bool.eq_false_iff.2 fun hi => by simp [hinv.illAlone hi] at hrunning
  constructor
  case bufWf =>
    obtain hbuf | ⟨-, v, hbuf⟩ := move_buf_cases h <;> rw [hbuf]
    · exact hinv.bufWf
    · exact Memory.wf_write _ _ _ hinv.bufWf
  case bufBelow =>
    rw [hcfg]
    obtain hbuf | ⟨hi, v, hbuf⟩ := move_buf_cases h <;> rw [hbuf]
    · exact hinv.bufBelow
    · exact Memory.below_write _ _ _ _ hinv.bufBelow hi
  case openIff => exact move_openIff h hinv.openIff
  case doneIdle =>
    obtain ⟨hst, -⟩ | ⟨-, hdone⟩ := move_done h
    · exact fun _ => hst
    · simp [hdone, hrunning]
  case illAlone => simp [hill, hlegal]
  case errPhase =>
    obtain ⟨herr, hphase⟩ | ⟨herr, hphase⟩ := move_err h
    · rw [herr, hphase]; exact hinv.errPhase
    · exact iff_of_true herr hphase
  case errorStops => exact move_errorStops h fun he => (hinv.errorStops he).resolve_left hb
  case useqX24 =>
    rw [hcmd]
    obtain ⟨-, -, huseq⟩ | ⟨-, -, hop, -⟩ := move_transaction h
    · rw [huseq]; exact hinv.useqX24
    · exact fun _ => hop
  case kindFits => exact fun _ => move_allows h hinv.allows
  case indexLive => exact hinv.move_indexLive h
  case tdIsCommand => exact hinv.move_tdIsCommand h
  case xbStaged => exact hinv.move_xbStaged h
  case swselCommand => exact fun hst => absurd hst (move_st_ne_swsel h)

end Step

/-! ## The issue of a command -/

/-- What the issue of a legal command `i` sets, for all ten commands at once, and the registers it keeps (41_sequencer_fsm.md R162,
R163): TD is the descriptor of `i` and ST is S_START, or there is no transaction and ST is S_SWSEL. -/
structure Issued (i : Instr) (s t : State) : Prop where
  cmd : t.cmd = encode i
  len : t.len = s.len
  cfg : t.cfg = s.cfg
  buf : t.buf = s.buf
  status : t.status = { s.status.cleared with ack := t.status.ack }
  st : t.st = if (descriptor s.cfg s.len false i).isSome then .start else .swsel
  td : ∀ d ∈ descriptor s.cfg s.len false i, t.td = d
  xb : ∀ d ∈ descriptor s.cfg s.len false i, d.src = .xb → t.xb = s.cfg.x24DirBytes
  answers : t.answers = s.answers
  trace : t.trace = s.trace

section Issue

variable {i : Instr} {s t : State}

theorem exec_wellFormed (h : i.wellFormed s.cfg s.len = true) : ∃ t, exec i s = .next t ∧ Issued i s t := by
  rw [wellFormed_iff] at h
  obtain ⟨hbus, hlen⟩ := h
  cases i
  all_goals
    simp [Instr.bus?, Instr.usesLen] at hbus hlen
    simp only [exec, execPoll, execWrb, execRdb, execWrm, execRdm, execSwsel, execSwdes, execX24set, execX8drv, execX8sns, issue,
      busLegal, lenLegal, hbus, hlen, decide_true, Bool.and_true, if_true]
    refine ⟨_, rfl, ?_⟩
    constructor <;> simp [descriptor, Status.cleared]

/-- The commands without a transaction (41_sequencer_fsm.md R163). -/
theorem descriptor_eq_none_iff {c : Config} {len : Half} {useq : Bool} :
    descriptor c len useq i = none ↔ (∃ ch, i = .swsel ch) ∨ i = .swdes := by
  cases i <;> simp [descriptor]

/-- After an issue the block is about to open the transaction of the command, or in S_SWSEL with a switch command. -/
theorem Issued.st_cases (h : Issued i s t) :
    (t.st = .start ∧ descriptor s.cfg s.len false i = some t.td) ∨ (t.st = .swsel ∧ ((∃ ch, i = .swsel ch) ∨ i = .swdes)) := by
  have hst := h.st
  cases hd : descriptor s.cfg s.len false i with
  | some d => exact .inl ⟨by rw [hst, hd]; rfl, by rw [h.td d hd]⟩
  | none => exact .inr ⟨by rw [hst, hd]; rfl, descriptor_eq_none_iff.1 hd⟩

/-- The issue of a legal command brings an idle block into a state that meets the invariant. -/
theorem Invariant.issued (hinv : Invariant s) (hidle : s.st = .idle) (hwf : i.wellFormed s.cfg s.len = true) (h : Issued i s t) :
    Invariant t := by
  have hdecode : decode t.cmd = .ok i := by rw [h.cmd]; exact decode_encode i
  have hclosed : s.status.busOpen = false := by rw [hinv.openIff, hidle]; rfl
  have hstart (ht : t.st.transacting = true) : descriptor s.cfg s.len false i = some t.td := by
    obtain ⟨-, hd⟩ | ⟨hst, -⟩ := h.st_cases
    · exact hd
    · simp [hst, SeqState.transacting, SeqState.inTransaction] at ht
  constructor
  case bufWf => rw [h.buf]; exact hinv.bufWf
  case bufBelow => rw [h.buf, h.cfg]; exact hinv.bufBelow
  case openIff => obtain ⟨hst, -⟩ | ⟨hst, -⟩ := h.st_cases <;> rw [h.status, hst] <;> exact hclosed
  case doneIdle | illAlone | errPhase | errorStops | useqX24 => rw [h.status]; simp
  case kindFits => obtain ⟨hst, -⟩ | ⟨hst, -⟩ := h.st_cases <;> rw [hst] <;> exact fun _ => rfl
  case indexLive => obtain ⟨hst, -⟩ | ⟨hst, -⟩ := h.st_cases <;> simp [hst]
  case tdIsCommand =>
    intro ht
    refine ⟨i, ?_, ?_⟩ <;> rw [h.cfg, h.len]
    · exact (decodeAt_ok_iff ..).2 ⟨hdecode, hwf⟩
    · rw [h.status]; exact hstart ht
  case xbStaged =>
    intro ht hsrc
    rw [h.xb _ (hstart ht) hsrc, h.status, h.cfg]; rfl
  case swselCommand =>
    intro hst
    obtain ⟨hst', -⟩ | ⟨-, ⟨ch, rfl⟩ | rfl⟩ := h.st_cases
    · rw [hst] at hst'; cases hst'
    · exact .inl ⟨ch, hdecode⟩
    · exact .inr hdecode

/-- An illegal word leaves an idle block idle, with ILL and DONE alone (30_encoding.md R108). -/
theorem Invariant.illegalCommand (hinv : Invariant s) (hidle : s.st = .idle) : Invariant (illegalCommand s) where
  bufWf := hinv.bufWf
  bufBelow := hinv.bufBelow
  openIff := hinv.openIff
  doneIdle _ := hidle
  illAlone _ := ⟨rfl, rfl, rfl⟩
  errPhase := by simp
  errorStops _ := .inl hidle
  useqX24 := nofun
  kindFits := hinv.kindFits
  indexLive := hinv.indexLive
  tdIsCommand := by simp [hidle, SeqState.transacting, SeqState.inTransaction]
  xbStaged := by simp [hidle, SeqState.transacting, SeqState.inTransaction]
  swselCommand := hinv.swselCommand

theorem Invariant.exec (hinv : Invariant s) (hidle : s.st = .idle) (h : exec i s = .next t) : Invariant t := by
  cases hwf : i.wellFormed s.cfg s.len with
  | false =>
    rw [exec_illFormed i s hwf] at h
    cases h; exact hinv.illegalCommand hidle
  | true =>
    obtain ⟨u, hu, hissued⟩ := exec_wellFormed hwf
    rw [hu] at h
    cases h; exact hinv.issued hidle hwf hissued

/-- Each operation of the host keeps the invariant: LEN and BUF are free while idle, and a write of BUF stays inside it
(10_state.md R53; 20_memory.md R70). -/
theorem Invariant.hostStep {op : HostOp} (hinv : Invariant s) (hidle : s.st = .idle) (h : hostStep op s = .next t) : Invariant t := by
  have hquiet : s.st.transacting = false := by rw [hidle]; rfl
  cases op with
  | issue w =>
    simp only [Machine.hostStep, issueWord] at h
    split at h
    · exact hinv.exec hidle h
    · cases h; exact hinv.illegalCommand hidle
  | setLen v =>
    cases h
    exact { hinv with tdIsCommand := by simp [hquiet] }
  | bufWrite i v =>
    by_cases hi : i.toNat < s.cfg.maxlen
    · cases (bufWrite_of_lt s _ v hi).symm.trans h
      exact { hinv with bufWf := Memory.wf_write _ _ _ hinv.bufWf, bufBelow := Memory.below_write _ _ _ _ hinv.bufBelow hi }
    · cases (bufWrite_of_ge s _ v hi).symm.trans h
  | reset =>
    cases h
    exact (invariant_resetOf s.cfg).withInputs s.host s.answers s.trace s.free

end Issue

/-- Settles O50: a waiting block stands still, an idle one takes the host's operation, and an answered request is an exchange, which
touches no register, and a move. -/
theorem stepKeepsTheInvariant : Obligations.StepKeepsTheInvariant := by
  intro s t hinv hstep
  obtain ⟨_, _, rfl⟩ | ⟨op, rest, hidle, _, hop⟩ | ⟨_, _, rfl⟩ | ⟨q, r, rest, hb, _, _, hr⟩ := step_cases hstep
  · exact hinv
  · exact (hinv.withInputs rest s.answers s.trace s.free).hostStep hidle hop
  · exact hinv
  · exact (hinv.after_exchange q r).move hb (respond_move hr)

end Sys2Proof.Machine

/-! PROOF. The issue step (41_sequencer_fsm.md R160, R162, R163). -/

namespace Sys2Proof.Machine

theorem issueWord_of_decode {w : Word} {i : Instr} (h : decode w = .ok i) (s : State) : issueWord w s = exec i s := by
  rw [issueWord, h]

/-- Settles O10: the idle block issues the word, which decodes to the command. -/
theorem stepRunsTheDecodedCommand : Obligations.StepRunsTheDecodedCommand := by
  intro s w rest i hidle hhost hdecode
  rw [step_idle_cons s _ rest hidle hhost]
  exact issueWord_of_decode ((decodeAt_ok_iff ..).1 hdecode).1 _

theorem decode_of_decodeTableWord {nbits w : Nat} {i : Instr} (h : decodeTableWord nbits w = some i) :
    decode (tableWord nbits w) = .ok i := by
  rw [decodeTableWord] at h
  split at h <;> simp_all

/-- Settles O11: `withFetchWord` makes the word the first operation of an idle block. -/
theorem stepRunsThePlacedWord : Obligations.StepRunsThePlacedWord := by
  intro s nbits w i hword
  rw [step_idle_cons (s.withFetchWord nbits w) (.issue (tableWord nbits w)) s.host rfl rfl]
  exact issueWord_of_decode (decode_of_decodeTableWord hword) _

/-- Settles O14: a command whose bus, and whose LEN where it counts, are in range is latched and set up. -/
theorem issueSetsTheDescriptor : Obligations.IssueSetsTheDescriptor := by
  intro s
  have hbus {bus : Byte} (h : bus.toNat < s.cfg.nbus) : busLegal s bus = true := decide_eq_true h
  have hlen (h : s.len.toNat ≤ s.cfg.maxlen) : lenLegal s = true := decide_eq_true h
  exact ⟨fun bus addr hb => ⟨_, if_pos (hbus hb), rfl⟩,
    fun f bus addr data hb => ⟨_, if_pos (hbus hb), rfl⟩,
    fun bus addr hb => ⟨_, if_pos (hbus hb), rfl⟩,
    fun f bus addr sub hb hl => ⟨_, if_pos (Bool.and_eq_true_iff.2 ⟨hbus hb, hlen hl⟩), rfl⟩,
    fun bus addr sub hb hl => ⟨_, if_pos (Bool.and_eq_true_iff.2 ⟨hbus hb, hlen hl⟩), rfl⟩,
    fun value => ⟨_, rfl, rfl⟩, fun data => ⟨_, rfl, rfl⟩, ⟨_, rfl, rfl⟩, fun ch => ⟨_, rfl, rfl⟩, ⟨_, rfl, rfl⟩⟩

end Sys2Proof.Machine

/-! PROOF. The primitive steps state by state (41_sequencer_fsm.md R164 to R180). Each state of ST has one rule (`step_start`,
`step_addr`, …) that names the request it makes and the move on the response; a statement about a state is that rule, followed by the
cases of the response. -/

namespace Sys2Proof.Machine

/-! ## One rule for each state -/

section Rules

variable {s : State} {r : Response} {rest : List Response} {q : Request}

/-- The exchange takes the first answer and adds itself to the trace. -/
theorem exchange_of_answers (ha : s.answers = r :: rest) :
    exchange q r s = { s with answers := rest, trace := s.trace ++ [⟨q, r⟩] } := by
  rw [exchange, ha, List.tail_cons]

/-- A request and its answer, the state being busy. -/
theorem step_exchange {x : SeqState} (hst : s.st = x) (hx : x ≠ .idle) (ha : s.answers = r :: rest) (hq : request s = .next q) :
    step s = respond r (exchange q r s) :=
  step_answered s q r rest (hst ▸ hx) ha hq

theorem step_start (hst : s.st = .start) (ha : s.answers = r :: rest) :
    step s = afterStart r (exchange ⟨s.td.bus, .start⟩ r s) := by
  rw [step_exchange hst nofun ha (q := ⟨s.td.bus, .start⟩) (by rw [request, hst])]
  simp only [respond, exchange_st, hst]

theorem step_addr (hst : s.st = .addr) (ha : s.answers = r :: rest) :
    step s = afterAddr r (exchange ⟨s.td.bus, .write (firstAddress s.td)⟩ r s) := by
  rw [step_exchange hst nofun ha (q := ⟨s.td.bus, .write (firstAddress s.td)⟩) (by rw [request, hst])]
  simp only [respond, exchange_st, hst]

theorem step_data (hst : s.st = .data) (ha : s.answers = r :: rest) :
    step s = afterData r (exchange ⟨s.td.bus, .write s.td.arg⟩ r s) := by
  rw [step_exchange hst nofun ha (q := ⟨s.td.bus, .write s.td.arg⟩) (by rw [request, hst])]
  simp only [respond, exchange_st, hst]

theorem step_sub (hst : s.st = .sub) (ha : s.answers = r :: rest) :
    step s = afterSub r (exchange ⟨s.td.bus, .write s.td.arg⟩ r s) := by
  rw [step_exchange hst nofun ha (q := ⟨s.td.bus, .write s.td.arg⟩) (by rw [request, hst])]
  simp only [respond, exchange_st, hst]

theorem step_wdata {d : Byte} (hst : s.st = .wdata) (ha : s.answers = r :: rest) (hd : sourceByte s = .next d) :
    step s = afterWdata r (exchange ⟨s.td.bus, .write d⟩ r s) := by
  rw [step_exchange hst nofun ha (q := ⟨s.td.bus, .write d⟩) (by simp only [request, hst, hd])]
  simp only [respond, exchange_st, hst]

theorem step_restart (hst : s.st = .restart) (ha : s.answers = r :: rest) :
    step s = afterRestart r (exchange ⟨s.td.bus, .restart⟩ r s) := by
  rw [step_exchange hst nofun ha (q := ⟨s.td.bus, .restart⟩) (by rw [request, hst])]
  simp only [respond, exchange_st, hst]

theorem step_addrR (hst : s.st = .addrR) (ha : s.answers = r :: rest) :
    step s = afterAddrR r (exchange ⟨s.td.bus, .write (readAddress s.td.addr)⟩ r s) := by
  rw [step_exchange hst nofun ha (q := ⟨s.td.bus, .write (readAddress s.td.addr)⟩) (by rw [request, hst])]
  simp only [respond, exchange_st, hst]

theorem step_read (hst : s.st = .read) (ha : s.answers = r :: rest) :
    step s = afterRead r (exchange ⟨s.td.bus, .read (notLast s.idx s.td.n)⟩ r s) := by
  rw [step_exchange hst nofun ha (q := ⟨s.td.bus, .read (notLast s.idx s.td.n)⟩) (by rw [request, hst])]
  simp only [respond, exchange_st, hst]

theorem step_stop (hst : s.st = .stop) (ha : s.answers = r :: rest) :
    step s = afterStop r (exchange ⟨s.td.bus, .stop⟩ r s) := by
  rw [step_exchange hst nofun ha (q := ⟨s.td.bus, .stop⟩) (by rw [request, hst])]
  simp only [respond, exchange_st, hst]

theorem step_swsel {m : Byte} (hst : s.st = .swsel) (ha : s.answers = r :: rest) (hm : commandMask s.cmd = .next m) :
    step s = afterSwsel r (exchange ⟨s.cfg.swBus, .swsel s.cfg.swAddr m⟩ r s) := by
  rw [step_exchange hst nofun ha (q := ⟨s.cfg.swBus, .swsel s.cfg.swAddr m⟩) (by simp only [request, hst, hm])]
  simp only [respond, exchange_st, hst]

/-- A fault between Start and Stop raises PrimFault in every state alike, OPEN having been set before Start (41_sequencer_fsm.md R164,
R173, R174). -/
theorem respond_fault {info : PFInfo} (ht : s.st.transacting = true) (hstop : s.st ≠ .stop)
    (hc : s.st = .start → s.cfg.stopAfterStartFault = true) :
    respond (.fault info) s = .next (raisePrimFault info (if s.st = .start then setOpen true s else s)) := by
  cases hst : s.st <;> rw [respond, hst]
  case idle | swsel => rw [hst] at ht; cases ht
  case stop => exact absurd hst hstop
  case start => simp [afterStart, hc hst]
  all_goals rfl

end Rules

/-! ## The statements, state by state -/

/-- Settles O15, by the answer; either way OPEN is set. -/
theorem startOpensTheTransaction : Obligations.StartOpensTheTransaction := by
  intro s rest hst
  refine ⟨fun v ha => ?_, fun info ha hc => ?_⟩ <;> rw [step_start hst ha, exchange_of_answers ha, afterStart]
  · exact ⟨_, rfl, rfl⟩
  · exact ⟨_, if_pos hc, rfl⟩

/-- Settles O16, by the kind of the transaction and the acknowledge. -/
theorem addressByteDecides : Obligations.AddressByteDecides := by
  intro s v rest hst ha
  rw [← ackOf, step_addr hst ha, exchange_of_answers ha, afterAddr, onOk_ok, firstAddress, readAddress]
  cases hk : s.td.kind <;> cases hv : ackOf v <;>
    exact ⟨_, rfl, by simp [goto, enterLoop, raiseProtocolError]⟩

/-- Settles O17, by the acknowledge and TD.FLAG. -/
theorem dataByteNackRaisesOnlyIfRequired : Obligations.DataByteNackRaisesOnlyIfRequired := by
  intro s v rest hst ha
  rw [← ackOf, step_data hst ha, exchange_of_answers ha, afterData, onOk_ok]
  cases hv : ackOf v <;> cases hf : s.td.flag <;> exact ⟨_, rfl, by simp [goto, raiseProtocolError]⟩

/-- Settles O18, by the acknowledge, the kind of the transaction and whether there are bytes to send. -/
theorem subAddressByteDecides : Obligations.SubAddressByteDecides := by
  intro s v rest hst ha hkind
  rw [← ackOf, step_sub hst ha, exchange_of_answers ha, afterSub, onOk_ok]
  cases hv : ackOf v
  case false => exact ⟨_, rfl, by simp [goto, raiseProtocolError]⟩
  obtain hk | hk := hkind <;> simp only [hk, Bool.not_true, Bool.false_eq_true, if_false]
  · by_cases hn : s.td.n = 0#16
    · exact ⟨_, if_pos hn, by simp [hn, goto]⟩
    · exact ⟨_, if_neg hn, by simp [hn, enterLoop]⟩
  · exact ⟨_, rfl, by simp [goto]⟩

/-- Settles O20: the one row of S_RESTART. -/
theorem restartLeadsToTheReadAddress : Obligations.RestartLeadsToTheReadAddress := by
  intro s v rest hst ha
  rw [step_restart hst ha, exchange_of_answers ha]
  exact ⟨_, rfl, rfl⟩

/-- Settles O21, by the acknowledge and whether there are bytes to read. -/
theorem readAddressByteDecides : Obligations.ReadAddressByteDecides := by
  intro s v rest hst ha
  rw [← ackOf, step_addrR hst ha, exchange_of_answers ha, afterAddrR, onOk_ok, readAddress]
  cases hv : ackOf v
  case false => exact ⟨_, rfl, by simp [goto, raiseProtocolError]⟩
  simp only [Bool.not_true, Bool.false_eq_true, if_false]
  by_cases hn : s.td.n = 0#16
  · exact ⟨_, if_pos hn, by simp [hn, goto]⟩
  · exact ⟨_, if_neg hn, by simp [hn, enterLoop]⟩

/-- The byte S_WDATA sends, from the source the descriptor names (41_sequencer_fsm.md R170). -/
theorem sourceByte_eq {s : State} {d : Byte}
    (hbuf : s.td.src = .buf → s.idx.toNat < s.cfg.maxlen ∧ Memory.read s.buf s.idx.toNat = some d)
    (hxb : s.td.src = .xb → [s.xb.b0, s.xb.b1, s.xb.b2][s.idx.toNat]? = some d) : sourceByte s = .next d := by
  cases hsrc : s.td.src <;> simp only [sourceByte, hsrc]
  case buf => exact (bufRead_next_iff ..).2 (hbuf hsrc)
  case xb =>
    specialize hxb hsrc
    match hi : s.idx.toNat with
    | 0 | 1 | 2 => simpa [hi, xbRead] using hxb
    | i + 3 => simp [hi] at hxb

/-- The index after a byte that is not the last stays below the number of bytes, and does not wrap (00_scope.md R20). -/
theorem index_succ_lt {i n : Half} (h : i.toNat < n.toNat) (hlast : i.toNat + 1 ≠ n.toNat) : (i + 1).toNat < n.toNat := by
  simp
  omega

/-- Settles O19, by whether the byte is the last, the acknowledge and TD.FLAG. -/
theorem bufferByteNackIsToleratedOnlyOnTheLast : Obligations.BufferByteNackIsToleratedOnlyOnTheLast := by
  intro s v rest d hst ha hbuf hxb
  rw [← ackOf, step_wdata hst ha (sourceByte_eq hbuf hxb), exchange_of_answers ha, afterWdata, onOk_ok]
  by_cases hl : s.idx.toNat + 1 = s.td.n.toNat <;> simp only [isLast, hl, decide_true, decide_false]
  case pos =>
    cases hv : ackOf v <;> cases hf : s.td.flag <;> exact ⟨_, rfl, by simp [goto, raiseProtocolError]⟩
  case neg =>
    cases hv : ackOf v
    · exact ⟨_, rfl, by simp [goto, raiseProtocolError]⟩
    · exact ⟨_, rfl, by simp, by simp, by simp, fun _ _ => rfl, fun hi _ => index_succ_lt hi hl⟩

/-- What S_READ leaves in RDATA, and in BUF. -/
theorem storeRead_of_lt {s : State} (v : Byte) (h : s.td.kind = .rdb ∨ s.idx.toNat < s.cfg.maxlen) :
    storeRead v s = .next { s with
      rdata := if s.td.kind = .rdb then v else s.rdata
      buf := if s.td.kind = .rdb then s.buf else Memory.write s.buf s.idx.toNat v } := by
  by_cases hk : s.td.kind = .rdb
  · simp [storeRead, hk]
  · simp [storeRead, hk, bufWrite_of_lt s _ v (h.resolve_left hk)]

/-- Settles O22: the byte is stored, and the index moves on unless it was the last. -/
theorem readStoresTheByte : Obligations.ReadStoresTheByte := by
  intro s v rest hst ha hplace
  rw [← dataOf, step_read hst ha, afterRead, onOk_ok, storeRead_of_lt (s := exchange _ _ s) _ hplace,
    exchange_of_answers ha]
  have hread (j : Nat) :
      Memory.read (if s.td.kind = .rdb then s.buf else Memory.write s.buf s.idx.toNat (dataOf v)) j =
        if s.td.kind ≠ .rdb ∧ j = s.idx.toNat then some (dataOf v) else Memory.read s.buf j := by
    by_cases hk : s.td.kind = .rdb <;> simp [hk, Memory.read_write]
  by_cases hl : s.idx.toNat + 1 = s.td.n.toNat
  · refine ⟨_, if_pos (decide_eq_true hl), ?_, fun hne => absurd hl hne, nofun, hread⟩
    simp [goto, hl, notLast]
  · refine ⟨_, if_neg (by simpa [isLast] using hl), ?_, fun _ => ⟨rfl, rfl⟩, fun hi _ => index_succ_lt hi hl, hread⟩
    simp [nextIndex, hl, notLast, hst]

/-- Settles O23, by `respond_fault`; OPEN is set first in S_START. -/
theorem faultInATransactionGoesToStop : Obligations.FaultInATransactionGoesToStop := by
  intro s info rest q ht hstop hc hq ha
  have hb : s.st ≠ .idle := by rintro hst; rw [hst] at ht; cases ht
  rw [step_answered s q _ rest hb ha hq, respond_fault (s := exchange _ _ s) ht hstop hc, exchange_of_answers ha]
  refine ⟨_, rfl, ?_⟩
  by_cases hst : s.st = .start <;> simp [hst, raisePrimFault, recordFault, goto, setOpen]

/-- When X24SET begins its second transaction (41_sequencer_fsm.md R176). -/
theorem chains_iff (s : State) :
    chains s = true ↔ opField s.cmd = 0xA ∧ s.status.useq = false ∧ s.status.err = false ∧ s.status.pf = false := by
  simp [chains, and_assoc]

theorem afterStop_of_chains {r : Response} {s : State} (h : chains (recordIfFault r (setOpen false s)) = true) :
    afterStop r s = .next (secondTransaction (recordIfFault r (setOpen false s))) := by
  simp [afterStop, h]

theorem afterStop_of_not_chains {r : Response} {s : State} (h : chains (recordIfFault r (setOpen false s)) = false) :
    afterStop r s = .next (endCommand (recordIfFault r (setOpen false s))) := by
  simp [afterStop, h]

/-- Settles O24, by the condition of the second transaction, which the fault of this Stop enters. -/
theorem stopEndsTheTransaction : Obligations.StopEndsTheTransaction := by
  intro s r rest hst ha status asked again
  have hchains : chains (recordIfFault r (setOpen false (exchange ⟨s.td.bus, .stop⟩ r s))) = true ↔ again := by
    cases r <;> exact chains_iff _
  by_cases hagain : again
  · refine ⟨_, by rw [step_stop hst ha, afterStop_of_chains (hchains.2 hagain)], fun _ => ?_, fun hn => absurd hagain hn⟩
    rw [exchange_of_answers ha]
    cases r <;> rfl
  · have hends := Bool.eq_false_iff.2 (mt hchains.1 hagain)
    refine ⟨_, by rw [step_stop hst ha, afterStop_of_not_chains hends], fun h => absurd h hagain, fun _ => ?_⟩
    rw [exchange_of_answers ha]
    cases r <;> rfl

/-- Settles O25: the mask is the one the command names. -/
theorem switchSelectEndsTheCommand : Obligations.SwitchSelectEndsTheCommand := by
  intro s r rest mask hst ha hmask
  have hm : commandMask s.cmd = .next mask := by
    obtain ⟨hop, rfl⟩ | ⟨hop, rfl⟩ := hmask <;> rw [← opField] at hop <;> simp [commandMask, hop, oneHot, chField]
  rw [step_swsel hst ha hm, exchange_of_answers ha]
  cases r <;> exact ⟨_, rfl, rfl⟩

end Sys2Proof.Machine

/-! PROOF. How a command ends (41_sequencer_fsm.md R184, R189, R190). `primsLeft` bounds the primitives a state may still request until
its command has ended. Every move lowers it, so a command ends within the bound if no step stops before. -/

namespace Sys2Proof.Machine

/-! ## The edges of the sequencer -/

section Edges

variable {r : Response} {s t : State}

/-- The rows of S_STOP (41_sequencer_fsm.md R176). -/
theorem move_st_of_stop (h : Move r s t) (hst : s.st = .stop) : t.st = .idle ∨ t.st = .start := by
  cases h
  case again => exact .inr rfl
  case stopped => exact .inl rfl
  case fault h => exact absurd hst (inTransaction_of_faulting h).2
  case nack hn => exact absurd hst hn.st_ne.2
  all_goals simp_all

/-- The row of S_SWSEL (41_sequencer_fsm.md R180). -/
theorem move_st_of_swsel (h : Move r s t) (hst : s.st = .swsel) : t.st = .idle := by
  cases h
  case selected => rfl
  case fault h => simp [hst] at h
  case nack hn => simp [NackRaises, hst] at hn
  all_goals simp_all

/-- Every other row stays between Start and Stop (41_sequencer_fsm.md R184). -/
theorem move_inTransaction (h : Move r s t) (hc : s.cfg.stopAfterStartFault = true) (hstop : s.st ≠ .stop) (hswsel : s.st ≠ .swsel) :
    t.st.inTransaction = true := by
  cases h
  case startAbandoned hc' => simp [hc] at hc'
  case again hst _ => exact absurd hst hstop
  case stopped hst _ => exact absurd hst hstop
  case selected hst => exact absurd hst hswsel
  case byteSent hst _ => rw [nextIndex_st, hst]; rfl
  case byteRead hst hs _ => rw [nextIndex_st, hs.eq_update, hst]; rfl
  all_goals rfl

end Edges

/-- Settles O54: the rows of S_STOP, of S_SWSEL and the others. -/
theorem idleIsReachedOnlyThroughStop : Obligations.IdleIsReachedOnlyThroughStop := by
  intro s t hb hc ha hstep
  obtain ⟨q, r, rest, _, _, hm⟩ := step_move hb ha hstep
  exact ⟨(move_inTransaction hm hc :), (move_st_of_stop hm :), (move_st_of_swsel hm :)⟩

/-! ## After an error -/

/-- Settles O55: the state is S_STOP and cannot begin a second transaction, so the Stop ends the command; ILL is 0 in a running one. -/
theorem afterAnErrorOnlyStopFollows : Obligations.AfterAnErrorOnlyStopFollows := by
  intro s r rest hinv hb herror ha
  have hst : s.st = .stop := (hinv.errorStops herror).resolve_left hb
  have hlegal : s.status.ill = false := Bool.eq_false_iff.2 fun hi => hb (hinv.doneIdle (hinv.illAlone hi).1)
  have hends : chains (recordIfFault r (setOpen false (exchange ⟨s.td.bus, .stop⟩ r s))) = false := by
    obtain herr | hpf := herror <;> simp [chains, recordIfFault_eq, *]
  refine ⟨_, by rw [step_stop hst ha, afterStop_of_not_chains hends], ?_⟩
  obtain herr | hpf := herror <;> cases r <;> simp [recordIfFault, outcome, *]

/-! ## The bound -/

/-- The primitives of the second transaction of X24SET, while it is still to come (41_sequencer_fsm.md R161). -/
def primsPending (td : TD) (useq : Bool) : Nat :=
  if td.src = .xb ∧ useq = false then transactionBound td else 0

/-- The most primitives the running command still requests (41_sequencer_fsm.md R189). -/
def primsLeft (s : State) : Nat :=
  match s.st with
  | .idle => 0
  | .swsel => 1
  | .start => transactionBound s.td + primsPending s.td s.status.useq
  | .addr => transactionBound s.td - 1 + primsPending s.td s.status.useq
  | .sub => transactionBound s.td - 2 + primsPending s.td s.status.useq
  | .restart => s.td.n.toNat + 3 + primsPending s.td s.status.useq
  | .addrR => s.td.n.toNat + 2 + primsPending s.td s.status.useq
  | .wdata => s.td.n.toNat - s.idx.toNat + 1 + primsPending s.td s.status.useq
  | .read => s.td.n.toNat - s.idx.toNat + 1 + primsPending s.td s.status.useq
  | .data => 2 + primsPending s.td s.status.useq
  | .stop => 1 + primsPending s.td s.status.useq

section Bound

variable {r : Response} {s t : State} {i : Instr}

theorem three_le_transactionBound (td : TD) : 3 ≤ transactionBound td := by
  cases hk : td.kind <;> simp only [transactionBound, hk] <;> omega

theorem primsLeft_pos (hb : s.st ≠ .idle) : 0 < primsLeft s := by
  have hbound := three_le_transactionBound s.td
  cases hst : s.st <;> simp only [primsLeft, hst]
  case idle => exact absurd hst hb
  all_goals omega

/-- S_STOP is entered from a transaction only, and ends it (41_sequencer_fsm.md R181). -/
theorem move_to_stop (h : Move r s t) (ht : t.st = .stop) : s.st.transacting = true ∧ s.st ≠ .stop := by
  cases h
  case fault hst => exact (inTransaction_of_faulting hst).imp_left SeqState.transacting_of_inTransaction
  case nack hn => exact ⟨SeqState.transacting_of_inTransaction hn.inTransaction, hn.st_ne.2⟩
  case byteRead hst hs _ => rw [hs.eq_update] at ht; simp [hst] at ht
  all_goals simp_all [SeqState.transacting, SeqState.inTransaction]

/-- Before S_STOP there is a primitive besides the Stop. -/
theorem Invariant.stop_lt_primsLeft (hinv : Invariant s) (ht : s.st.transacting = true) (hstop : s.st ≠ .stop) :
    1 + primsPending s.td s.status.useq < primsLeft s := by
  have hbound := three_le_transactionBound s.td
  cases hst : s.st <;> simp only [primsLeft, hst]
  case idle | swsel => rw [hst] at ht; cases ht
  case stop => exact absurd hst hstop
  case sub =>
    have hk : s.td.kind = .wrm ∨ s.td.kind = .rdm := by simpa [hst, SeqState.allows] using hinv.kindFits ht
    obtain hk | hk := hk <;> simp only [transactionBound, hk] <;> omega
  case wdata => have hidx := hinv.indexLive (.inl hst); omega
  case read => have hidx := hinv.indexLive (.inr hst); omega
  all_goals omega

/-- X24SET sends XB (44_adapter_exp24.md R241). -/
theorem Invariant.src_of_opField (hinv : Invariant s) (ht : s.st.transacting = true) (hop : opField s.cmd = 0xA) : s.td.src = .xb := by
  obtain ⟨i, hdecode, hdesc⟩ := hinv.tdIsCommand ht
  obtain ⟨value, rfl⟩ := eq_x24set_of_opField ((decodeAt_ok_iff ..).1 hdecode).1 hop
  rw [descriptor, Option.some.injEq] at hdesc
  rw [← hdesc]

/-- Each move takes the command nearer to its end. -/
theorem Invariant.move_primsLeft (hinv : Invariant s) (h : Move r s t) : primsLeft t < primsLeft s := by
  have hbound := three_le_transactionBound s.td
  by_cases hstop : t.st = .stop
  · obtain ⟨ht, hs⟩ := move_to_stop h hstop
    obtain ⟨htd, -, huseq⟩ | ⟨-, hst, -⟩ := move_transaction h
    · simpa only [primsLeft, hstop, htd, huseq] using hinv.stop_lt_primsLeft ht hs
    · rw [hstop] at hst; cases hst
  cases h
  case startOk hst => simp [primsLeft, hst]; omega
  case startAbandoned hst _ => exact primsLeft_pos (by simp [hst])
  case stopped hst _ => exact primsLeft_pos (by simp [hst])
  case selected hst => exact primsLeft_pos (by simp [hst])
  case addrToData hst hk => simp [primsLeft, transactionBound, hst, hk]
  case addrToRead hst hk =>
    obtain ⟨i, _, hdesc⟩ := hinv.tdIsCommand (by rw [hst]; rfl)
    simp [primsLeft, transactionBound, hst, hk, descriptor_n_of_rdb hdesc hk]
  case addrToSub hst hk => simp [primsLeft, hst]; omega
  case subToRestart hst hk => simp [primsLeft, transactionBound, hst, hk]; omega
  case subToWdata hst hk _ => simp [primsLeft, transactionBound, hst, hk]; omega
  case byteSent hst hl =>
    have hi := hinv.indexLive (.inl hst)
    simp [primsLeft, hst]; omega
  case byteRead hst hs hl =>
    have hi := hinv.indexLive (.inr hst)
    rw [hs.eq_update]
    simp [primsLeft, hst]; omega
  case restarted hst => simp [primsLeft, hst]
  case addrRToRead hst _ => simp [primsLeft, hst]
  case again hst hc =>
    have hc : opField s.cmd = 0xA ∧ s.status.useq = false := by simp_all [chains, recordIfFault_eq]
    have hsrc := hinv.src_of_opField (by rw [hst]; rfl) hc.1
    simp [primsLeft, primsPending, transactionBound, hst, recordIfFault_eq, hc, hsrc]
  all_goals exact absurd rfl hstop

/-! ## The run -/

/-- The bytes the running WRM sends from BUF have been written (70_reset_and_hazards.md R305). -/
def Written (s : State) : Prop :=
  s.st.transacting = true → s.td.kind = .wrm → s.td.src = .buf → ∀ k, k < s.td.n.toNat → Memory.read s.buf k ≠ none

/-- WRM does not write BUF, and no move changes the length of a transaction. -/
theorem Invariant.move_written (hinv : Invariant s) (h : Move r s t) (hw : Written s) : Written t := by
  obtain ⟨-, -, -, -, -, htd⟩ := move_sameFixed h
  have hkind : t.td.kind = s.td.kind := (congrArg TD.kind htd :)
  have hsrc : t.td.src = s.td.src := (congrArg TD.src htd :)
  have hn : t.td.n = s.td.n := (congrArg TD.n htd :)
  intro ht hwrm hbuf k hk
  rw [hkind] at hwrm
  rw [hsrc] at hbuf
  rw [hn] at hk
  obtain hread | ⟨hst, hrdb, -⟩ := move_read_buf h k
  · rw [hread]; exact hw (move_transacting h ht) hwrm hbuf k hk
  · have hallows := hinv.allows
    simp [hst, hwrm, SeqState.allows] at hallows

/-- A busy block whose payload is written takes its step as soon as the environment answers. -/
theorem Invariant.step_next (hinv : Invariant s) (hb : s.st ≠ .idle) (hw : Written s) : ∃ t, step s = .next t := by
  obtain ⟨hrefused, hfault⟩ := onlyTwoStopsExist
  cases hstep : step s with
  | next t => exact ⟨t, rfl⟩
  | refused x => exact absurd hstep (hrefused s x)
  | fault e =>
    obtain ⟨-, hst, hsrc, hread⟩ | ⟨_, _, _, -, hidle, -⟩ := hfault s e hinv hstep
    · have hk : s.td.kind = .wrm := by simpa [hst, SeqState.allows] using hinv.allows
      exact absurd hread (hw (by rw [hst]; rfl) hk hsrc _ (hinv.indexLive (.inl hst)))
    · exact absurd hidle hb

/-- A busy block whose payload is written ends its command with DONE, one primitive per step, if it is answered. -/
theorem Invariant.runs_to_end {s : State} (hinv : Invariant s) (hb : s.st ≠ .idle) (hw : Written s) (ha : primsLeft s ≤ s.answers.length) :
    ∃ k u, 1 ≤ k ∧ k ≤ primsLeft s ∧ Runs k s u ∧ u.st = .idle ∧ u.status.done = true ∧
      u.trace.length = s.trace.length + k := by
  obtain ⟨t, hstep⟩ := hinv.step_next hb hw
  have hpos := primsLeft_pos hb
  obtain ⟨q, r, rest, hr, -, hm⟩ := step_move hb (by rintro hn; simp [hn] at ha; omega) hstep
  have hexchange : Invariant (exchange q r s) := hinv.after_exchange q r
  have hlt : primsLeft t < primsLeft s := hexchange.move_primsLeft hm
  have htrace : t.trace = s.trace ++ [⟨q, r⟩] := move_trace hm
  have hanswers : t.answers = s.answers.tail := move_answers hm
  obtain ⟨hidle, hdone⟩ | ⟨hidle, -⟩ := move_done hm
  · exact ⟨1, t, le_rfl, hpos, runs_succ hstep (runs_zero t), hidle, hdone, by simp [htrace]⟩
  · have ht : Invariant t := stepKeepsTheInvariant s t hinv hstep
    have hwt : Written t := hexchange.move_written hm hw
    obtain ⟨k, u, hk, hle, hruns, hst, hdone, hlen⟩ := ht.runs_to_end hidle hwt (by simp [hanswers]; omega)
    exact ⟨k + 1, u, by omega, by omega, runs_succ hstep hruns, hst, hdone, by rw [hlen, htrace]; simp; omega⟩
termination_by primsLeft s

/-- A transaction that sends bytes of BUF is that of a WRM, LEN bytes long (41_sequencer_fsm.md R163). -/
theorem eq_wrm_of_descriptor {c : Config} {len : Half} {useq : Bool} {d : TD} (h : descriptor c len useq i = some d)
    (hk : d.kind = .wrm) (hsrc : d.src = .buf) : (∃ f bus addr sub, i = .wrm f bus addr sub) ∧ d.n = len := by
  cases i <;> cases h <;> simp at hk hsrc ⊢

theorem Issued.written (h : Issued i s t) (hp : PayloadReady s i) : Written t := by
  intro ht hwrm hbuf
  obtain ⟨-, hdesc⟩ | ⟨hst, -⟩ := h.st_cases
  · obtain ⟨⟨f, bus, addr, sub, rfl⟩, hn⟩ := eq_wrm_of_descriptor hdesc hwrm hbuf
    rw [hn, h.buf]
    exact hp
  · rw [hst] at ht; cases ht

/-- After the issue no more than the bound of the command is left (41_sequencer_fsm.md R161, R189). -/
theorem Issued.primsLeft (h : Issued i s t) : primsLeft t = commandBound s.cfg s.len i := by
  have huseq : t.status.useq = false := by rw [h.status]; rfl
  obtain ⟨hst, hd⟩ | ⟨hst, hi⟩ := h.st_cases
  · by_cases hsrc : t.td.src = .xb <;> simp [Machine.primsLeft, hst, primsPending, huseq, commandBound, hd, hsrc, Nat.two_mul]
  · simp only [Machine.primsLeft, hst, commandBound, descriptor_eq_none_iff.2 hi]

end Bound

/-- Settles O53: the issue leaves the bound of the command, and the run lowers it to 0. -/
theorem everyCommandEndsWithinItsBound : Obligations.EveryCommandEndsWithinItsBound := by
  intro s i hinv hidle hwf hpayload hanswers
  obtain ⟨t, hexec, hissued⟩ := exec_wellFormed hwf
  have hb : t.st ≠ .idle := by
    obtain ⟨hst, -⟩ | ⟨hst, -⟩ := hissued.st_cases <;> simp [hst]
  obtain ⟨k, u, hk, hle, hruns, hst, hdone, hlen⟩ := (hinv.issued hidle hwf hissued).runs_to_end hb (hissued.written hpayload)
    (by rw [hissued.primsLeft, hissued.answers]; exact hanswers)
  exact ⟨t, u, k, hexec, hk, hissued.primsLeft ▸ hle, hruns, hst, hdone, by rw [hlen, hissued.trace]⟩

end Sys2Proof.Machine

/-! PROOF. The engine operations from their issue to their end (42_engine_ops.md R200 to R210; 41_sequencer_fsm.md R187).
`Performs es s t` says that the block goes from `s` to `t` by the exchanges `es`. A move of the sequencer is one exchange
(`performs_one`), exchanges compose (`Performs.cons`, `Performs.trans`), and a command is its issue followed by its exchanges
(`completes_of_performs`); the two loops are inductions over the bytes (`performs_bytes`, `performs_reads`). -/

namespace Sys2Proof.Machine

/-! ## Exchanges that follow one another -/

/-- `s` with these answers to come and this trace so far: the port's side of the state, which no move looks at. -/
def State.withPort (s : State) (answers : List Response) (trace : List Exchange) : State :=
  { s with answers := answers, trace := trace }

/-- From `s` the block makes the exchanges `es`, one in each step, and is then in `t`, whatever the answers after them and the trace
before them. The port's side of `s` and of `t` themselves does not count. -/
def Performs (es : List Exchange) (s t : State) : Prop :=
  ∀ rest trace, Runs es.length (s.withPort (es.map Exchange.response ++ rest) trace) (t.withPort rest (trace ++ es))

section Performs

variable {s t u : State} {es fs : List Exchange} {r : Response}

theorem performs_nil (s : State) : Performs [] s s := by
  intro rest trace
  rw [List.append_nil]
  exact runs_zero _

theorem Performs.trans (h : Performs es s t) (h' : Performs fs t u) : Performs (es ++ fs) s u := by
  intro rest trace
  rw [List.length_append, List.map_append, List.append_assoc, ← List.append_assoc trace]
  exact runs_add (h ..) (h' ..)

theorem Performs.cons {e : Exchange} (h : Performs [e] s t) (h' : Performs es t u) : Performs (e :: es) s u := h.trans h'

/-- The run of a state that has the answers to `es` to come. -/
theorem Performs.runs {rest : List Response} (h : Performs es s t) (ha : s.answers = es.map Exchange.response ++ rest) :
    Runs es.length s (t.withPort rest (s.trace ++ es)) := by
  have hs : s.withPort (es.map Exchange.response ++ rest) s.trace = s := by rw [State.withPort, ← ha]
  exact hs ▸ h rest s.trace

theorem Stores.storeRead {v : Byte} (h : Stores v s t) : storeRead v s = .next t := by
  obtain ⟨hk, rfl⟩ | ⟨hk, hi, rfl⟩ := h
  · exact if_pos hk
  · exact (if_neg hk).trans (if_pos hi)

/-- The converse of `respond_move`. -/
theorem Move.respond (h : Move r s t) : respond r s = .next t := by
  cases h
  case fault hst => obtain h | h | h | h | h | h | h := hst <;> rw [Machine.respond, h] <;> rfl
  case nack ha hn =>
    obtain ⟨rfl, h, hk | hk | hk⟩ | ⟨rfl, h, hk⟩ | ⟨rfl, h, hf⟩ | ⟨rfl, h⟩ | ⟨rfl, h, hl⟩ | ⟨rfl, h⟩ := hn <;>
      simp [Machine.respond, afterAddr, afterData, afterSub, afterWdata, afterAddrR, onOk, *]
  case addrToSub ha h hk => obtain hk | hk := hk <;> simp [Machine.respond, h, afterAddr, onOk, hk, ha]
  case dataSent h ha => obtain ha | hf := ha <;> simp [Machine.respond, afterData, onOk, *]
  case lastSent h hl ha => obtain ha | hf := ha <;> simp [Machine.respond, afterWdata, onOk, *]
  case subToWdata ha h hk hn => simpa [Machine.respond, h, afterSub, onOk, hk, ha] using fun hz => absurd hz hn
  case addrRToRead ha h hn => simpa [Machine.respond, h, afterAddrR, onOk, ha] using fun hz => absurd hz hn
  case lastRead h hs hl => simp [Machine.respond, h, afterRead, onOk, hs.storeRead, hl]
  case byteRead h hs hl => simp [Machine.respond, h, afterRead, onOk, hs.storeRead, hl]
  all_goals
    simp [Machine.respond, afterStart, afterAddr, afterSub, afterWdata, afterRestart, afterAddrR, afterStop, afterSwsel, onOk, *]

theorem Stores.withPort {v : Byte} (h : Stores v s t) (answers : List Response) (trace : List Exchange) :
    Stores v (s.withPort answers trace) (t.withPort answers trace) := by
  obtain ⟨hk, rfl⟩ | ⟨hk, hi, rfl⟩ := h
  · exact .inl ⟨hk, rfl⟩
  · exact .inr ⟨hk, hi, rfl⟩

/-- No move looks at the port's side of the state. -/
theorem Move.withPort (h : Move r s t) (answers : List Response) (trace : List Exchange) :
    Move r (s.withPort answers trace) (t.withPort answers trace) := by
  cases h
  case startOk h => exact .startOk _ _ h
  case startFault h hc => exact .startFault _ _ h hc
  case startAbandoned h hc => exact .startAbandoned _ _ h hc
  case fault h => exact .fault _ _ h
  case nack ha h => exact .nack _ _ _ ha h
  case probed h hk => exact .probed _ _ h hk
  case addrToData ha h hk => exact .addrToData _ _ h hk ha
  case addrToRead ha h hk => exact .addrToRead _ _ h hk ha
  case addrToSub ha h hk => exact .addrToSub _ _ h hk ha
  case dataSent h ha => exact .dataSent _ _ h ha
  case subToRestart ha h hk => exact .subToRestart _ _ h hk ha
  case subToStop ha h hk hn => exact .subToStop _ _ h hk ha hn
  case subToWdata ha h hk hn => exact .subToWdata _ _ h hk ha hn
  case lastSent h hl ha => exact .lastSent _ _ h hl ha
  case byteSent ha h hl => exact .byteSent _ _ h hl ha
  case restarted h => exact .restarted _ _ h
  case addrRToStop ha h hn => exact .addrRToStop _ _ h ha hn
  case addrRToRead ha h hn => exact .addrRToRead _ _ h ha hn
  case lastRead u h hs hl => exact .lastRead _ _ (u.withPort answers trace) h (hs.withPort ..) hl
  case byteRead u h hs hl => exact .byteRead _ _ (u.withPort answers trace) h (hs.withPort ..) hl
  case again h hc => cases r <;> exact .again _ _ h hc
  case stopped h hc => cases r <;> exact .stopped _ _ h hc
  case selected h => cases r <;> exact .selected _ _ h

/-- One exchange: the request the state makes, and a move on the answer. -/
theorem performs_one {q : Request} (hq : request s = .next q) (hm : Move r s t) : Performs [⟨q, r⟩] s t := by
  have hb : s.st ≠ .idle := by rintro hst; rw [request, hst] at hq; cases hq
  intro rest trace
  refine runs_succ ?_ (runs_zero _)
  rw [List.map_singleton, List.singleton_append, step_answered (s.withPort (r :: rest) trace) q r rest hb rfl hq]
  exact (hm.withPort rest (trace ++ [⟨q, r⟩])).respond

/-- A command that makes the exchanges `es` after its issue, in the form of the statements: IDX and the count of the free values are left
open (log 5). -/
theorem completes_of_performs {i : Instr} {rest : List Response} {trace : List Exchange} {k : Nat} (hexec : exec i s = .next t)
    (h : Performs es t u) (ha : t.answers = es.map Exchange.response ++ rest) (hst : u.st = s.st)
    (hk : es.length = k := by rfl) (htrace : t.trace ++ es = trace := by rfl) :
    ∃ a b, exec i s = .next a ∧ Runs k a b ∧
      b = { u with st := s.st, answers := rest, trace := trace, idx := b.idx, free := b.free } := by
  subst hk htrace
  exact ⟨t, _, hexec, h.runs ha, by rw [← hst]; rfl⟩

end Performs

/-! ## The issue of a legal engine command (41_sequencer_fsm.md R162, R163) -/

section Issue

variable {s : State} {bus : Byte}

theorem exec_poll (addr : Byte) (h : bus.toNat < s.cfg.nbus) :
    exec (.poll bus addr) s = .next (openTransaction ⟨.poll, bus, addr, 0, false, 0, .buf⟩
      { latchCommand (.poll bus addr) s with status := { s.status.cleared with ack := false } }) :=
  if_pos (decide_eq_true h)

theorem exec_wrb (f : Bool) (addr data : Byte) (h : bus.toNat < s.cfg.nbus) :
    exec (.wrb f bus addr data) s =
      .next (openTransaction ⟨.wrb, bus, addr, data, f, 0, .buf⟩ (latchCommand (.wrb f bus addr data) s)) :=
  if_pos (decide_eq_true h)

theorem exec_rdb (addr : Byte) (h : bus.toNat < s.cfg.nbus) :
    exec (.rdb bus addr) s =
      .next (openTransaction ⟨.rdb, bus, addr, 0, false, 1, .buf⟩ { latchCommand (.rdb bus addr) s with rdata := 0 }) :=
  if_pos (decide_eq_true h)

theorem exec_wrm (f : Bool) (addr sub : Byte) (h : bus.toNat < s.cfg.nbus) (hlen : s.len.toNat ≤ s.cfg.maxlen) :
    exec (.wrm f bus addr sub) s =
      .next (openTransaction ⟨.wrm, bus, addr, sub, f, s.len, .buf⟩ (latchCommand (.wrm f bus addr sub) s)) :=
  if_pos (Bool.and_eq_true_iff.2 ⟨decide_eq_true h, decide_eq_true hlen⟩)

theorem exec_rdm (addr sub : Byte) (h : bus.toNat < s.cfg.nbus) (hlen : s.len.toNat ≤ s.cfg.maxlen) :
    exec (.rdm bus addr sub) s =
      .next (openTransaction ⟨.rdm, bus, addr, sub, false, s.len, .buf⟩ (latchCommand (.rdm bus addr sub) s)) :=
  if_pos (Bool.and_eq_true_iff.2 ⟨decide_eq_true h, decide_eq_true hlen⟩)

end Issue

/-! ## The parts that the transactions share -/

section Parts

variable {s : State}

theorem performs_start (v : Half) (hst : s.st = .start) :
    Performs [⟨⟨s.td.bus, .start⟩, .ok v⟩] s (goto .addr (setOpen true s)) :=
  performs_one (by rw [request, hst]) (.startOk v s hst)

/-- An unmet acknowledge that raises ProtocolError (60_exceptions.md R262, R263). -/
theorem performs_nack {q : Request} {p : Phase} {v : Half} (hq : request s = .next q) (hn : NackRaises s p) (hv : ackOf v = false) :
    Performs [⟨q, .ok v⟩] s (raiseProtocolError p s) :=
  performs_one hq (.nack v s p hv hn)

/-- The Stop that ends a command (41_sequencer_fsm.md R175, R176). -/
theorem performs_stop (v : Half) (hst : s.st = .stop) (hc : chains s = false) :
    Performs [⟨⟨s.td.bus, .stop⟩, .ok v⟩] s (endCommand (setOpen false s)) :=
  performs_one (by rw [request, hst]) (.stopped (.ok v) s hst hc)

theorem chains_of_opField (h : opField s.cmd ≠ 0xA) : chains s = false :=
  Bool.eq_false_iff.2 fun hc => h ((chains_iff s).1 hc).1

theorem chains_of_err (h : s.status.err = true) : chains s = false := by simp [chains, h]

/-- A transaction whose address byte `b` is not acknowledged (41_sequencer_fsm.md R166, R167). -/
theorem performs_address_nack {b : Byte} {p : Phase} (v0 : Half) {v1 : Half} (v2 : Half) (hst : s.st = .start)
    (hb : firstAddress s.td = b) (hn : NackRaises (goto .addr (setOpen true s)) p) (hv : ackOf v1 = false) :
    Performs [⟨⟨s.td.bus, .start⟩, .ok v0⟩, ⟨⟨s.td.bus, .write b⟩, .ok v1⟩, ⟨⟨s.td.bus, .stop⟩, .ok v2⟩] s
      (endCommand (setOpen false (raiseProtocolError p (goto .addr (setOpen true s))))) :=
  .cons (performs_start v0 hst) <| .cons (performs_nack (by simp [request, hb]) hn hv) <| performs_stop v2 rfl (chains_of_err rfl)

theorem firstAddress_many {td : TD} (hk : td.kind = .wrm ∨ td.kind = .rdm) : firstAddress td = td.addr := by
  obtain hk | hk := hk <;> simp [firstAddress, hk]

/-- WRM and RDM up to their sub-address. -/
theorem performs_header (v0 : Half) {v1 : Half} (hst : s.st = .start) (hk : s.td.kind = .wrm ∨ s.td.kind = .rdm)
    (hv : ackOf v1 = true) :
    Performs [⟨⟨s.td.bus, .start⟩, .ok v0⟩, ⟨⟨s.td.bus, .write s.td.addr⟩, .ok v1⟩] s (goto .sub (goto .addr (setOpen true s))) :=
  .cons (performs_start v0 hst) <| performs_one (by simp [request, firstAddress_many hk]) (.addrToSub v1 _ rfl hk hv)

/-- RDM up to its read address (41_sequencer_fsm.md R169, R171). -/
theorem performs_restart_header (v0 : Half) {v1 v2 : Half} (v3 : Half) (hst : s.st = .start) (hk : s.td.kind = .rdm)
    (hv1 : ackOf v1 = true) (hv2 : ackOf v2 = true) :
    Performs [⟨⟨s.td.bus, .start⟩, .ok v0⟩, ⟨⟨s.td.bus, .write s.td.addr⟩, .ok v1⟩, ⟨⟨s.td.bus, .write s.td.arg⟩, .ok v2⟩,
      ⟨⟨s.td.bus, .restart⟩, .ok v3⟩] s (goto .addrR (goto .restart (goto .sub (goto .addr (setOpen true s))))) :=
  .trans (performs_header v0 hst (.inr hk) hv1) <| .cons (performs_one rfl (.subToRestart v2 _ rfl hk hv2)) <|
    performs_one rfl (.restarted v3 _ rfl)

end Parts

/-! ## The loops of S_WDATA and S_READ -/

/-- `s` with IDX = `i`. -/
def State.atIndex (s : State) (i : Nat) : State := { s with idx := BitVec.ofNat 16 i }

theorem nextIndex_atIndex (s : State) (i : Nat) : nextIndex (s.atIndex i) = s.atIndex (i + 1) := by
  simp [nextIndex, State.atIndex, BitVec.ofNat_add]

section Index

variable {i : Nat} {n : Half} (h : i < n.toNat)
include h

theorem toNat_index : (BitVec.ofNat 16 i).toNat = i :=
  (BitVec.toNat_ofNat i 16).trans (Nat.mod_eq_of_lt (h.trans n.isLt))

theorem isLast_index : isLast (BitVec.ofNat 16 i) n = decide (i + 1 = n.toNat) := by rw [isLast, toNat_index h]

theorem notLast_index : notLast (BitVec.ofNat 16 i) n = decide (i + 1 < n.toNat) := by rw [notLast, toNat_index h]

end Index

section Write

variable {s : State} {bytes : List Byte} {vals : List Half}

theorem request_wdata {b : Byte} (hst : s.st = .wdata) (hb : sourceByte s = .next b) : request s = .next ⟨s.td.bus, .write b⟩ := by
  rw [request, hst]
  simp only [hb]

theorem sourceByte_of_read_buf {i : Nat} {b : Byte} (hsrc : s.td.src = .buf) (hi : i < s.td.n.toNat)
    (hmax : s.td.n.toNat ≤ s.cfg.maxlen) (hread : Memory.read s.buf i = some b) : sourceByte (s.atIndex i) = .next b := by
  have hidx : (s.atIndex i).idx.toNat = i := toNat_index hi
  refine sourceByte_eq (fun _ => ?_) fun hxb => nomatch hsrc.symm.trans hxb
  rw [hidx]
  exact ⟨hi.trans_le hmax, hread⟩

/-- S_WDATA: bytes before the last one, each acknowledged (41_sequencer_fsm.md R170). -/
theorem performs_bytes {i : Nat} (hst : s.st = .wdata) (hlen : vals.length = bytes.length) (hack : ∀ v ∈ vals, ackOf v = true)
    (hn : i + bytes.length < s.td.n.toNat)
    (hsrc : ∀ k (h : k < bytes.length), sourceByte (s.atIndex (i + k)) = .next bytes[k]) :
    Performs (writes s.td.bus bytes vals) (s.atIndex i) (s.atIndex (i + bytes.length)) := by
  induction bytes generalizing vals i with
  | nil => exact performs_nil _
  | cons b bytes ih =>
    obtain ⟨v, vals, rfl⟩ := List.exists_cons_of_length_eq_add_one hlen
    rw [List.forall_mem_cons] at hack
    rw [List.length_cons] at hn
    have hlast : isLast (s.atIndex i).idx s.td.n = false :=
      (isLast_index (by omega)).trans (decide_eq_false (by omega))
    have hone := performs_one (request_wdata (s := s.atIndex i) hst (hsrc 0 (Nat.succ_pos _))) (.byteSent v _ hst hlast hack.1)
    rw [nextIndex_atIndex] at hone
    rw [List.length_cons, Nat.add_comm bytes.length, ← Nat.add_assoc]
    refine hone.cons (ih (Nat.succ.inj hlen) hack.2 (by omega) fun k hk => ?_)
    rw [Nat.add_right_comm]
    exact hsrc (k + 1) (Nat.succ_lt_succ hk)

/-- Of the answers to the bytes of a WRM, only the last may be an unmet acknowledge, and only if TD.FLAG = 0 (R170). -/
def Tolerated (flag : Bool) (vals : List Half) : Prop :=
  ∀ k (h : k < vals.length), k + 1 < vals.length ∨ flag = true → ackOf vals[k] = true

theorem Tolerated.init_last {flag : Bool} {v : Half} (h : Tolerated flag (vals ++ [v])) :
    (∀ w ∈ vals, ackOf w = true) ∧ (ackOf v = true ∨ flag = false) := by
  rw [List.forall_mem_iff_getElem, or_iff_not_imp_right, Bool.not_eq_false]
  refine ⟨fun k hk => ?_, fun hflag => ?_⟩
  · have hlt : k + 1 < (vals ++ [v]).length := by simpa using hk
    rw [← List.getElem_append_left (bs := [v]) hk]
    exact h k (Nat.lt_of_succ_lt hlt) (.inl hlt)
  · simpa using h vals.length (by simp) (.inr hflag)

theorem writes_concat {bus : Byte} (h : vals.length = bytes.length) (b : Byte) (v : Half) :
    writes bus (bytes ++ [b]) (vals ++ [v]) = writes bus bytes vals ++ [⟨⟨bus, .write b⟩, .ok v⟩] :=
  List.zipWith_append h.symm

variable {v : Half} (hst : s.st = .sub) (hk : s.td.kind = .wrm) (hv : ackOf v = true) (hlen : vals.length = bytes.length)
  (hsrc : ∀ k (h : k < bytes.length), sourceByte (s.atIndex k) = .next bytes[k])
include hst hk hv hlen hsrc

/-- The sub-address of WRM and the bytes up to number `bytes.length`, each acknowledged. -/
theorem performs_payload_start (hack : ∀ v ∈ vals, ackOf v = true) (hn : bytes.length < s.td.n.toNat) :
    Performs (⟨⟨s.td.bus, .write s.td.arg⟩, .ok v⟩ :: writes s.td.bus bytes vals) s
      ((enterLoop .wdata s).atIndex bytes.length) := by
  have hn0 : s.td.n ≠ 0 := by rintro h; simp [h] at hn
  have hbytes := performs_bytes (s := enterLoop .wdata s) (i := 0) rfl hlen hack (by rwa [Nat.zero_add])
    fun k hk => by rw [Nat.zero_add]; exact hsrc k hk
  rw [Nat.zero_add] at hbytes
  exact (performs_one (by rw [request, hst]) (.subToWdata v s hst hk hv hn0)).cons hbytes

/-- The sub-address and all the bytes of WRM (42_engine_ops.md R206), which may be none. -/
theorem performs_payload (hack : Tolerated s.td.flag vals) (hn : bytes.length = s.td.n.toNat) :
    Performs (⟨⟨s.td.bus, .write s.td.arg⟩, .ok v⟩ :: writes s.td.bus bytes vals) s (goto .stop s) := by
  obtain rfl | ⟨bytes, b, rfl⟩ := List.eq_nil_or_concat' bytes
  · exact performs_one (by rw [request, hst]) (.subToStop v s hst hk hv (BitVec.eq_of_toNat_eq hn.symm))
  · obtain rfl | ⟨vals, w, rfl⟩ := List.eq_nil_or_concat' vals
    · simp at hlen
    obtain ⟨hinit, hw⟩ := hack.init_last
    rw [List.length_append, List.length_singleton] at hn
    have hlen : vals.length = bytes.length := by simpa using hlen
    have hlt : bytes.length < s.td.n.toNat := by omega
    have hb : sourceByte (s.atIndex bytes.length) = .next b := by simpa using hsrc bytes.length (by simp)
    have hstart := performs_payload_start hst hk hv hlen
      (fun k hk => by rw [hsrc k (by simp; omega), List.getElem_append_left hk]) hinit hlt
    have hl : isLast ((enterLoop .wdata s).atIndex bytes.length).idx s.td.n = true := (isLast_index hlt).trans (decide_eq_true hn)
    rw [writes_concat hlen]
    exact hstart.trans <| performs_one (request_wdata rfl hb) (.lastSent w _ rfl hl hw)

/-- The bytes of WRM up to one that is neither acknowledged nor tolerated (41_sequencer_fsm.md R170). -/
theorem performs_payload_nack {b : Byte} {w : Half} (hack : ∀ v ∈ vals, ackOf v = true) (hn : bytes.length < s.td.n.toNat)
    (hb : sourceByte (s.atIndex bytes.length) = .next b) (hlast : bytes.length + 1 < s.td.n.toNat ∨ s.td.flag = true)
    (hw : ackOf w = false) :
    Performs (⟨⟨s.td.bus, .write s.td.arg⟩, .ok v⟩ :: writes s.td.bus bytes vals ++ [⟨⟨s.td.bus, .write b⟩, .ok w⟩]) s
      (raiseProtocolError .data (enterLoop .wdata s)) := by
  have hl : isLast ((enterLoop .wdata s).atIndex bytes.length).idx s.td.n = false ∨ s.td.flag = true :=
    hlast.imp_left fun hlt => (isLast_index hn).trans (decide_eq_false hlt.ne)
  exact .trans (performs_payload_start hst hk hv hlen hsrc hack hn) <|
    performs_nack (p := .data) (request_wdata rfl hb) (.inr (.inr (.inr (.inr (.inl ⟨rfl, rfl, hl⟩))))) hw

end Write

/-- BUF after the bytes have been stored from index `i` on. -/
def Memory.store (m : Memory) (i : Nat) (bytes : List Byte) : Memory :=
  match bytes with
  | [] => m
  | b :: rest => Memory.store (Memory.write m i b) (i + 1) rest

theorem Memory.read_store (m : Memory) (i : Nat) (bytes : List Byte) (j : Nat) :
    Memory.read (Memory.store m i bytes) j = if i ≤ j then bytes[j - i]?.or (Memory.read m j) else Memory.read m j := by
  induction bytes generalizing m i with
  | nil => simp [Memory.store]
  | cons b rest ih =>
    rw [Memory.store, ih, Memory.read_write]
    grind

section Read

variable {s : State} {i : Nat} {v : Half} {vals : List Half}

theorem request_read (hst : s.st = .read) (hi : i < s.td.n.toNat) :
    request (s.atIndex i) = .next ⟨s.td.bus, .read (decide (i + 1 < s.td.n.toNat))⟩ := by
  rw [← notLast_index hi, request, show (s.atIndex i).st = .read from hst]
  rfl

theorem stores_atIndex (b : Byte) (hk : s.td.kind ≠ .rdb) (hi : i < s.td.n.toNat) (hmax : s.td.n.toNat ≤ s.cfg.maxlen) :
    Stores b (s.atIndex i) ({ s with buf := Memory.write s.buf i b }.atIndex i) := by
  have hidx : (s.atIndex i).idx.toNat = i := toNat_index hi
  exact .inr ⟨hk, hidx.trans_lt (hi.trans_le hmax), by rw [hidx]; rfl⟩

/-- S_READ of RDM, to the last byte (41_sequencer_fsm.md R178). -/
theorem performs_reads (hst : s.st = .read) (hk : s.td.kind ≠ .rdb) (hmax : s.td.n.toNat ≤ s.cfg.maxlen)
    (hn : i + (vals.length + 1) = s.td.n.toNat) :
    Performs (reads s.td.bus (v :: vals)) (s.atIndex i)
      (goto .stop { s with buf := Memory.store s.buf i ((v :: vals).map dataOf) }) := by
  induction vals generalizing s i v with
  | nil =>
    rw [List.length_nil, Nat.zero_add] at hn
    have hi : i < s.td.n.toNat := by omega
    have hreq := request_read hst hi
    rw [decide_eq_false (by omega)] at hreq
    have hl : isLast (s.atIndex i).idx s.td.n = true := (isLast_index hi).trans (decide_eq_true hn)
    have hlast := performs_one hreq (.lastRead v _ _ hst (stores_atIndex (dataOf v) hk hi hmax) hl)
    exact hlast
  | cons w vals ih =>
    rw [List.length_cons] at hn
    have hi : i < s.td.n.toNat := by omega
    have hreq := request_read hst hi
    rw [decide_eq_true (by omega)] at hreq
    have hl : isLast (s.atIndex i).idx s.td.n = false := (isLast_index hi).trans (decide_eq_false (by omega))
    have hone := performs_one hreq (.byteRead v _ _ hst (stores_atIndex (dataOf v) hk hi hmax) hl)
    rw [nextIndex_atIndex] at hone
    exact hone.cons (ih (s := { s with buf := Memory.write s.buf i (dataOf v) }) hst hk hmax (by rw [← hn]; omega))

/-- The read address and all the bytes of RDM (42_engine_ops.md R208), which may be none. -/
theorem performs_read_payload (hst : s.st = .addrR) (hk : s.td.kind ≠ .rdb) (hv : ackOf v = true)
    (hmax : s.td.n.toNat ≤ s.cfg.maxlen) (hn : vals.length = s.td.n.toNat) :
    Performs (⟨⟨s.td.bus, .write (s.td.addr ||| 1)⟩, .ok v⟩ :: reads s.td.bus vals) s
      (goto .stop { s with buf := Memory.store s.buf 0 (vals.map dataOf) }) := by
  have hreq : request s = .next ⟨s.td.bus, .write (s.td.addr ||| 1)⟩ := by rw [request, hst]; rfl
  cases vals with
  | nil => exact performs_one hreq (.addrRToStop v s hst hv (BitVec.eq_of_toNat_eq hn.symm))
  | cons w vals =>
    have hn0 : s.td.n ≠ 0 := by rintro h; simp [h] at hn
    have hreads := performs_reads (s := enterLoop .read s) (i := 0) (v := w) rfl hk hmax (by rwa [Nat.zero_add])
    exact (performs_one hreq (.addrRToRead v s hst hv hn0)).cons hreads

end Read

/-! ## The answers to a loop -/

theorem map_response_writes {bus : Byte} {bytes : List Byte} {vals : List Half} (h : vals.length = bytes.length) :
    (writes bus bytes vals).map Exchange.response = oks vals := by
  induction vals generalizing bytes with
  | nil => simp [writes]
  | cons v vals ih =>
    obtain ⟨b, bytes, rfl⟩ := List.exists_cons_of_length_eq_add_one h.symm
    exact congrArg _ (ih (Nat.succ.inj h))

theorem length_writes {bus : Byte} {bytes : List Byte} {vals : List Half} (h : vals.length = bytes.length) :
    (writes bus bytes vals).length = bytes.length := by
  simp [writes, h]

@[simp] theorem map_response_reads (bus : Byte) (vals : List Half) : (reads bus vals).map Exchange.response = oks vals := by
  induction vals with
  | nil => rfl
  | cons v vals ih => exact congrArg _ ih

@[simp] theorem length_reads (bus : Byte) (vals : List Half) : (reads bus vals).length = vals.length := by
  rw [← List.length_map (f := Exchange.response), map_response_reads, oks, List.length_map]

/-! ## The statements -/

/-- Settles O28: Start, the address byte as a probe, Stop. -/
theorem pollCompletes : Obligations.PollCompletes := by
  intro s bus addr v0 v1 v2 rest hidle hbus ha
  exact completes_of_performs (exec_poll addr hbus)
    (.cons (performs_start v0 rfl) <| .cons (performs_one rfl (.probed v1 _ rfl rfl)) <|
      performs_stop v2 rfl (chains_of_opField (by simp [encode])))
    ha hidle.symm

/-- Settles O29, by the acknowledge of the address, and then by whether the data byte raises an error. -/
theorem wrbCompletes : Obligations.WrbCompletes := by
  intro s f bus addr data v0 v1 v2 v3 rest hidle hbus ha
  have hexec := exec_wrb f addr data hbus
  refine ⟨fun hv => ?_, fun hv => ?_⟩
  · by_cases hraise : v2.getLsbD 0 = false ∧ f = true
    · rw [if_pos hraise]
      exact completes_of_performs hexec
        (.cons (performs_start v0 rfl) <| .cons (performs_one rfl (.addrToData v1 _ rfl rfl hv)) <|
          .cons (performs_nack (p := .data) rfl (by simp [NackRaises, hraise]) hraise.1) <| performs_stop v3 rfl (chains_of_err rfl))
        ha hidle.symm
    · have hsent : ackOf v2 = true ∨ f = false := by simpa [ackOf, or_iff_not_imp_left] using hraise
      rw [if_neg hraise]
      exact completes_of_performs hexec
        (.cons (performs_start v0 rfl) <| .cons (performs_one rfl (.addrToData v1 _ rfl rfl hv)) <|
          .cons (performs_one rfl (.dataSent v2 _ rfl hsent)) <| performs_stop v3 rfl (chains_of_opField (by simp [encode])))
        ha hidle.symm
  · exact completes_of_performs hexec (performs_address_nack (p := .addr) v0 v2 rfl rfl (by simp [NackRaises]) hv) ha hidle.symm

/-- Settles O30, by the acknowledge of the address; the one byte read is the last. -/
theorem rdbCompletes : Obligations.RdbCompletes := by
  intro s bus addr v0 v1 v2 v3 rest hidle hbus ha
  have hexec := exec_rdb addr hbus
  refine ⟨fun hv => ?_, fun hv => ?_⟩
  · exact completes_of_performs hexec
      (.cons (performs_start v0 rfl) <| .cons (performs_one rfl (.addrToRead v1 _ rfl rfl hv)) <|
        .cons (performs_one rfl (.lastRead v2 _ _ rfl (.inl ⟨rfl, rfl⟩) rfl)) <|
        performs_stop v3 rfl (chains_of_opField (by simp [encode])))
      ha hidle.symm
  · exact completes_of_performs hexec (performs_address_nack (p := .readAddr) v0 v2 rfl rfl (by simp [NackRaises]) hv) ha hidle.symm

/-- Settles O33: the two commands differ in the kind of their descriptor only, and S_ADDR and S_SUB raise the same errors for both. -/
theorem wrmRdmHeaderNackEndsTheCommand : Obligations.WrmRdmHeaderNackEndsTheCommand := by
  intro s i k f bus addr sub v0 v1 v2 v3 rest hidle hbus hmax hi ha
  have hexec : exec i s = .next (openTransaction ⟨k, bus, addr, sub, f, s.len, .buf⟩ (latchCommand i s)) := by
    obtain ⟨rfl, rfl⟩ | ⟨rfl, rfl, rfl⟩ := hi
    · exact exec_wrm f addr sub hbus hmax
    · exact exec_rdm addr sub hbus hmax
  have hk : k = .wrm ∨ k = .rdm := hi.imp (·.2) (·.2.1)
  refine ⟨fun hv => ?_, fun hv hv' => ?_⟩
  · exact completes_of_performs hexec (performs_address_nack (p := .addr) v0 v2 rfl (firstAddress_many hk) (by simp [NackRaises, hk]) hv)
      ha hidle.symm
  · exact completes_of_performs hexec
      (.trans (performs_header v0 rfl hk hv) <| .cons (performs_nack (p := .subaddr) rfl (by simp [NackRaises]) hv') <|
        performs_stop v3 rfl (chains_of_err rfl))
      ha hidle.symm

/-- Settles O35: RDM up to its read address, whose acknowledge is unmet. -/
theorem rdmReadAddressNackEndsTheCommand : Obligations.RdmReadAddressNackEndsTheCommand := by
  intro s bus addr sub v0 v1 v2 v3 v4 v5 rest hidle hbus hmax hv1 hv2 hv4 ha
  exact completes_of_performs (exec_rdm addr sub hbus hmax)
    (.trans (performs_restart_header v0 v3 rfl rfl hv1 hv2) <|
      .cons (performs_nack (p := .readAddr) rfl (by simp [NackRaises]) hv4) <| performs_stop v5 rfl (chains_of_err rfl))
    ha hidle.symm

/-- Settles O31: the header, the payload from BUF, the Stop. -/
theorem wrmCompletes : Obligations.WrmCompletes := by
  intro s f bus addr sub bytes v0 v1 v2 vStop vals rest hidle hbus hmax hlen hbytes hvals hv1 hv2 hack ha
  refine completes_of_performs (exec_wrm f addr sub hbus hmax)
    (.trans (performs_header v0 rfl (.inl rfl) hv1) <| .trans (performs_payload rfl rfl hv2 hvals (fun k hk => ?_) hack hlen) <|
      performs_stop vStop rfl (chains_of_opField (by simp [encode])))
    (by simp [ha, map_response_writes hvals]) hidle.symm (by simp [length_writes hvals]; omega) (by simp)
  exact sourceByte_of_read_buf rfl (hk.trans_eq hlen) hmax (hbytes k hk)

/-- Settles O32: the header, the payload up to the byte that raises the error, the Stop. -/
theorem wrmStopsAtTheFirstNackedByte : Obligations.WrmStopsAtTheFirstNackedByte := by
  intro s f bus addr sub bytes b v0 v1 v2 vNack vStop vals rest hidle hbus hmax hlt hlast hbytes hb hvals hv1 hv2 hack hv ha
  refine completes_of_performs (exec_wrm f addr sub hbus hmax)
    (.trans (performs_header v0 rfl (.inl rfl) hv1) <|
      .trans (performs_payload_nack (b := b) rfl rfl hv2 hvals (fun k hk => ?_) hack hlt ?_ hlast hv) <|
      performs_stop vStop rfl (chains_of_err rfl))
    (by simp [ha, map_response_writes hvals]) hidle.symm (by simp [length_writes hvals]; omega) (by simp)
  · exact sourceByte_of_read_buf rfl (hk.trans hlt) hmax (hbytes k hk)
  · exact sourceByte_of_read_buf rfl hlt hmax hb

/-- Settles O34: RDM up to its read address, the payload, the Stop; what BUF then holds is `Memory.read_store`. -/
theorem rdmCompletes : Obligations.RdmCompletes := by
  intro s bus addr sub v0 v1 v2 v3 v4 vStop vals rest hidle hbus hmax hlen hv1 hv2 hv4 ha
  obtain ⟨t, u, hexec, hruns, hu⟩ := completes_of_performs (exec_rdm addr sub hbus hmax)
    (.trans (performs_restart_header v0 v3 rfl rfl hv1 hv2) <| .trans (performs_read_payload rfl (by simp) hv4 hmax hlen) <|
      performs_stop vStop rfl (chains_of_opField (by simp [encode])))
    (rest := rest) (k := 6 + vals.length) (by simp [ha]) hidle.symm (by simp; omega)
  have hbuf : u.buf = Memory.store s.buf 0 (vals.map dataOf) := congrArg State.buf hu
  refine ⟨t, u, hexec, hruns, hu.trans (by simp only [List.append_assoc, hbuf]; rfl), fun j => ?_⟩
  rw [hbuf, Memory.read_store]
  by_cases hj : j < vals.length <;> simp [hj, dataOf]

/-! ## A write, then a read back -/

/-- The idle block takes the issue of a command (41_sequencer_fsm.md R162). -/
theorem step_issue {s : State} {i : Instr} {host : List HostOp} (hidle : s.st = .idle) (hhost : s.host = .issue (encode i) :: host) :
    step s = exec i { s with host := host } := by
  rw [step_idle_cons s _ host hidle hhost]
  exact issueWord_of_decode (decode_encode i) _

/-- The host's writes to BUF, one in each step, change nothing else (10_state.md R53). -/
theorem runs_bufWrites {s : State} {cells : List (Half × Byte)} {host : List HostOp} (hidle : s.st = .idle)
    (hrange : ∀ c ∈ cells, c.1.toNat < s.cfg.maxlen) (hhost : s.host = cells.map (fun c => .bufWrite c.1 c.2) ++ host) :
    ∃ buf, Runs cells.length s { s with buf := buf, host := host } := by
  induction cells generalizing s with
  | nil => exact ⟨s.buf, by rw [← show s.host = host from hhost]; exact runs_zero s⟩
  | cons c cells ih =>
    obtain ⟨hc, hrange⟩ := List.forall_mem_cons.1 hrange
    obtain ⟨hwrite, -⟩ := (hostWritesLenAndBuf s _ hidle).2
    obtain ⟨t, hstep, ht, -⟩ := hwrite c.1 c.2 hhost hc
    generalize t.buf = written at ht
    subst ht
    obtain ⟨buf, hruns⟩ := ih (s := { s with buf := written, host := cells.map (fun c => .bufWrite c.1 c.2) ++ host }) hidle hrange rfl
    exact ⟨buf, runs_succ hstep hruns⟩

/-- The byte an exchange writes. -/
def Exchange.written (e : Exchange) : Option Byte :=
  match e.request.prim with
  | .write b => some b
  | _ => none

theorem payload_eq (trace : List Exchange) : payload trace = (trace.filterMap Exchange.written).drop 2 := by
  rw [payload]
  congr
  funext e
  rw [Exchange.written]
  cases e.request.prim <;> rfl

theorem filterMap_written_writes {bus : Byte} {bytes : List Byte} {vals : List Half} (h : vals.length = bytes.length) :
    (writes bus bytes vals).filterMap Exchange.written = bytes := by
  induction bytes generalizing vals with
  | nil => rfl
  | cons b bytes ih =>
    obtain ⟨v, vals, rfl⟩ := List.exists_cons_of_length_eq_add_one h
    exact congrArg _ (ih (Nat.succ.inj h))

/-- What `payload` reads from the trace of a WRM. -/
theorem payload_writes {bus addr sub : Byte} {bytes : List Byte} {vals : List Half} {r0 r1 r2 r3 : Response}
    (h : vals.length = bytes.length) :
    payload ([⟨⟨bus, .start⟩, r0⟩, ⟨⟨bus, .write addr⟩, r1⟩, ⟨⟨bus, .write sub⟩, r2⟩] ++ writes bus bytes vals ++
      [⟨⟨bus, .stop⟩, r3⟩]) = bytes := by
  rw [payload_eq, List.filterMap_append, List.filterMap_append, filterMap_written_writes h]
  exact List.append_nil bytes

/-- Settles O42: WRM ends by O31 and RDM by O34; the bytes read are the payload of the WRM, which is what BUF held. -/
theorem writeThenReadBackIsTheIdentity : Obligations.WriteThenReadBackIsTheIdentity := by
  intro s f bus addr sub bytes clobber w0 w1 w2 wStop r0 r1 r2 r3 r4 rStop acks data host rest hidle hbus hmax hlen hbytes hclobber
    hacks hdata hack hhost ha
  generalize hlater : clobber.map (fun c => HostOp.bufWrite c.1 c.2) ++ .issue (encode (.rdm bus addr sub)) :: host = later at hhost
  simp only [List.forall_mem_cons] at hack
  obtain ⟨hw1, hw2, hr1, hr2, hr4, hack⟩ := hack
  obtain ⟨a, t, hwrm, hwrite, ht⟩ := wrmCompletes { s with host := later } f bus addr sub bytes w0 w1 w2 wStop acks
    (oks ([r0, r1, r2, r3, r4] ++ data ++ [rStop]) ++ rest) hidle hbus hmax hlen hbytes hacks hw1 hw2
    (fun k hk _ => hack _ (List.getElem_mem hk)) (by simp [ha])
  have hidle' : t.st = .idle := (congrArg State.st ht).trans hidle
  have hcfg : t.cfg = s.cfg := (congrArg State.cfg ht :)
  have hlen' : t.len = s.len := (congrArg State.len ht :)
  have hpayload : payload (t.trace.drop s.trace.length) = bytes := by
    have htrace := congrArg State.trace ht
    dsimp only at htrace
    rw [htrace, List.append_assoc, List.append_assoc, List.drop_left, ← List.append_assoc, payload_writes hacks]
  have hfirst := runs_succ ((step_issue hidle hhost).trans hwrm) hwrite
  rw [Nat.add_right_comm] at hfirst
  refine ⟨t, hfirst, by rw [ht]; rfl, fun hback => ?_⟩
  obtain ⟨buf, hclobbered⟩ := runs_bufWrites hidle' (hcfg ▸ hclobber) ((congrArg State.host ht).trans hlater.symm)
  obtain ⟨b, u, hrdm, hread, hu, hbuf⟩ := rdmCompletes { t with buf := buf, host := host } bus addr sub r0 r1 r2 r3 r4 rStop data rest
    hidle' (hcfg ▸ hbus) (hcfg ▸ hlen' ▸ hmax) (hlen' ▸ hdata.trans hlen) hr1 hr2 hr4 (congrArg State.answers ht)
  let clobbered : State := { t with buf := buf, host := .issue (encode (.rdm bus addr sub)) :: host }
  have hsecond := runs_succ ((step_issue (s := clobbered) hidle' rfl).trans hrdm) hread
  rw [Nat.add_right_comm, hdata] at hsecond
  refine ⟨u, runs_add hclobbered hsecond, (congrArg State.st hu).trans hidle', by rw [hu]; rfl, by rw [hu]; rfl, fun k hk => ?_⟩
  have hbyte : bytes[k] = data[k].extractLsb' 0 8 := by
    simp only [← hpayload, ← hback, List.getElem_map]
  rw [hbuf, dif_pos (hdata ▸ hk), hbyte]

end Sys2Proof.Machine

/-! PROOF. The commands of the bus switch from their issue to their end (43_adapter_switch.md R232, R233): one exchange in S_SWSEL, which
opens no transaction. -/

namespace Sys2Proof.Machine

theorem exec_swsel (ch : BitVec 3) (s : State) : exec (.swsel ch) s = .next (goto .swsel (latchCommand (.swsel ch) s)) := rfl

theorem exec_swdes (s : State) : exec .swdes s = .next (goto .swsel (latchCommand .swdes s)) := rfl

/-- The one primitive of a switch command (41_sequencer_fsm.md R180). -/
theorem performs_select {s : State} {m : Byte} (v : Half) (hst : s.st = .swsel) (hm : commandMask s.cmd = .next m) :
    Performs [⟨⟨s.cfg.swBus, .swsel s.cfg.swAddr m⟩, .ok v⟩] s (endCommand s) :=
  performs_one (by simp only [request, hst, hm]) (.selected (.ok v) s hst)

/-- Settles O36: the mask is what S_SWSEL reads back from the encoded command (O6). -/
theorem switchCommandsComplete : Obligations.SwitchCommandsComplete := by
  intro s v rest hidle ha
  obtain ⟨-, -, -, hselect, hdeselect, -⟩ := operandsAreAssembledAsTheTableSays
  refine ⟨fun ch => ?swsel, ?swdes⟩
  case swsel => exact completes_of_performs (exec_swsel ch s) (performs_select v rfl (hselect ch)) ha hidle.symm
  case swdes => exact completes_of_performs (exec_swdes s) (performs_select v rfl hdeselect) ha hidle.symm

end Sys2Proof.Machine

/-! PROOF. The command of the 24-bit expander from its issue to its end (44_adapter_exp24.md R240 to R247). `State.x24At t n` is the
state in which a transaction that opened in `t` makes its request number `n`, and one rule gives that request (`X24Opened.request`). A
transaction is then its first requests answered without failure (`X24Opened.performs`) and one more answer, whatever it is
(`X24Opened.performs_then`); both transactions follow the same rules from another opening state (`x24Opening`). -/

namespace Sys2Proof.Machine

/-! ## The bytes of the value -/

/-- Settles O7: the lanes are slices of the value, and the slices in order of significance are the value. -/
theorem valueBytesFollowTheLanes : Obligations.ValueBytesFollowTheLanes := by
  refine ⟨fun l value => rfl, fun value => ?recompose, by decide⟩
  change (value.extractLsb' 16 8 ++ value.extractLsb' 8 8) ++ value.extractLsb' 0 8 = value
  rw [BitVec.extractLsb'_append_extractLsb'_eq_extractLsb' (start₁ := 8) (start₂ := 16) rfl]
  exact BitVec.extractLsb'_append_extractLsb' (w := 16)

/-! ## Lists of requests and of acknowledges -/

theorem exchanges_take_append {bus : Byte} {prims prims' : List Prim} {responses responses' : List Response}
    (h : responses.length ≤ prims.length) :
    exchanges bus (prims.take responses.length ++ prims') (responses ++ responses') =
      exchanges bus prims responses ++ exchanges bus prims' responses' := by
  rw [exchanges, List.zipWith_append (by simpa using h), exchanges, List.zipWith_eq_zipWith_take_min (l₁ := prims), Nat.min_eq_right h,
    List.take_length]
  rfl

theorem exchanges_concat {bus : Byte} {prims : List Prim} {responses : List Response} (h : responses.length < prims.length) (r : Response) :
    exchanges bus prims (responses ++ [r]) = exchanges bus prims responses ++ [⟨⟨bus, prims[responses.length]⟩, r⟩] := by
  conv_lhs => rw [← List.take_append_drop responses.length prims, List.drop_eq_getElem_cons h]
  exact (exchanges_take_append h.le).trans (congrArg (_ ++ _ :: ·) List.zipWith_nil_right)

@[simp] theorem length_oks (vals : List Half) : (oks vals).length = vals.length := List.length_map _

theorem oks_concat (vals : List Half) (v : Half) : oks (vals ++ [v]) = oks vals ++ [.ok v] := List.map_append

theorem map_response_exchanges {bus : Byte} {prims : List Prim} {responses : List Response} (h : responses.length ≤ prims.length) :
    (exchanges bus prims responses).map Exchange.response = responses := by
  rw [exchanges, ← List.map_uncurry_zip_eq_zipWith, List.map_map]
  exact List.map_snd_zip h

theorem length_exchanges {bus : Byte} {prims : List Prim} {responses : List Response} (h : responses.length ≤ prims.length) :
    (exchanges bus prims responses).length = responses.length := by
  rw [← List.length_map (f := Exchange.response), map_response_exchanges h]

theorem x24Acked.init_last {vals : List Half} {v : Half} (h : x24Acked (vals ++ [v])) :
    x24Acked vals ∧ (1 ≤ vals.length → vals.length ≤ 5 → ackOf v = true) := by
  refine ⟨fun k hk h1 h5 => ?_, fun h1 h5 => ?_⟩
  · rw [← List.getElem_append_left (bs := [v]) hk]
    exact h k (by simp; omega) h1 h5
  · have hlast := h vals.length (by simp) h1 h5
    rwa [List.getElem_concat_length rfl] at hlast

theorem x24Acked_of_writes {v : Half} {vals : List Half} (h : ∀ w ∈ vals.take 5, ackOf w = true) : x24Acked (v :: vals) := by
  intro k hk h1 h5
  obtain ⟨k, rfl⟩ := Nat.exists_eq_add_of_le' h1
  exact h _ (List.mem_take_iff_getElem.2 ⟨k, by simp at hk; omega, rfl⟩)

/-! ## One transaction -/

/-- What the block does on a good answer to request number `n`, an acknowledge if the request is a Write (41_sequencer_fsm.md R164,
R167, R169, R170). -/
def x24Advance (n : Nat) (t : State) : State :=
  match n with
  | 0 => goto .addr (setOpen true t)
  | 1 => goto .sub t
  | 2 => enterLoop .wdata t
  | 3 => nextIndex t
  | 4 => nextIndex t
  | _ => goto .stop t

/-- The state in which a transaction that opened in `t` makes its request number `n`. -/
def State.x24At (t : State) (n : Nat) : State :=
  match n with
  | 0 => t
  | n + 1 => x24Advance n (t.x24At n)

/-- Until its Stop a transaction changes ST, IDX and OPEN only. -/
theorem State.x24At_frame (t : State) (n : Nat) : ∃ st idx free busOpen,
    t.x24At n = { t with st := st, idx := idx, free := free, status := { t.status with busOpen := busOpen } } := by
  induction n with
  | zero => exact ⟨t.st, t.idx, t.free, t.status.busOpen, rfl⟩
  | succ n ih =>
    obtain ⟨st, idx, free, busOpen, h⟩ := ih
    rw [State.x24At, h]
    match n with
    | 0 | 1 | 2 | 3 | 4 | n + 5 => exact ⟨_, _, _, _, rfl⟩

/-- `t` is about to start the first, or the second, transaction of X24SET with the parameters `c` (44_adapter_exp24.md R241, R242). -/
structure X24Opened (c : Config) (value : BitVec 24) (second : Bool) (t : State) : Prop where
  st : t.st = .start
  cfg : t.cfg = c
  td : t.td = ⟨.wrm, c.x24Bus, c.x24Addr, x24Sub c second, true, 3, .xb⟩
  xb : t.xb = x24Bytes c value second

section Transaction

variable {c : Config} {value : BitVec 24} {second : Bool} {t u : State} {vals : List Half} {n : Nat} {r : Response}

theorem length_x24Prims : (x24Prims c value second).length = 7 := rfl

theorem X24Opened.request (h : X24Opened c value second t) (hn : n < 7) :
    request (t.x24At n) = .next ⟨c.x24Bus, (x24Prims c value second)[n]⟩ := by
  obtain ⟨hst, -, htd, hxb⟩ := h
  interval_cases n <;>
    simp [Machine.request, State.x24At, x24Advance, x24Prims, firstAddress, sourceByte, xbRead, hst, htd, hxb]

/-- The bytes of XB leave in order, and the third is the last (41_sequencer_fsm.md R170). -/
theorem X24Opened.move_ok (h : X24Opened c value second t) {v : Half} (hn : n ≤ 5) (hv : 1 ≤ n → n ≤ 5 → ackOf v = true) :
    Move (.ok v) (t.x24At n) (t.x24At (n + 1)) := by
  have hkind : t.td.kind = .wrm := by rw [h.td]
  have hbytes : t.td.n = 3 := by rw [h.td]
  match n with
  | 0 => exact .startOk v t h.st
  | 1 => exact .addrToSub v _ rfl (.inl hkind) (hv le_rfl hn)
  | 2 => exact .subToWdata v _ rfl hkind (hv (by decide) hn) (ne_of_eq_of_ne hbytes (by decide))
  | 3 => exact .byteSent v _ rfl (congrArg (isLast 0) hbytes) (hv (by decide) hn)
  | 4 => exact .byteSent v _ rfl (congrArg (isLast 1) hbytes) (hv (by decide) hn)
  | 5 => exact .lastSent v _ rfl (congrArg (isLast 2) hbytes) (.inl (hv (by decide) hn))

theorem X24Opened.performs_concat (h : X24Opened c value second t) (hn : vals.length ≤ 6)
    (hp : Performs (exchanges c.x24Bus (x24Prims c value second) (oks vals)) t (t.x24At vals.length))
    (hm : Move r (t.x24At vals.length) u) :
    Performs (exchanges c.x24Bus (x24Prims c value second) (oks vals ++ [r])) t u := by
  have hlt : (oks vals).length < (x24Prims c value second).length := (length_oks vals).trans_lt (Nat.lt_succ_of_le hn)
  rw [exchanges_concat hlt]
  simp only [length_oks]
  exact hp.trans (performs_one (h.request (Nat.lt_succ_of_le hn)) hm)

/-- The first requests of a transaction, answered without failure (44_adapter_exp24.md R241). -/
theorem X24Opened.performs (h : X24Opened c value second t) (hn : vals.length ≤ 6) (hack : x24Acked vals) :
    Performs (exchanges c.x24Bus (x24Prims c value second) (oks vals)) t (t.x24At vals.length) := by
  induction vals using List.reverseRecOn with
  | nil => exact performs_nil t
  | append_singleton vals v ih =>
    obtain ⟨hinit, hv⟩ := hack.init_last
    rw [List.length_append, List.length_singleton] at hn ⊢
    rw [oks_concat]
    exact h.performs_concat (by omega) (ih (by omega) hinit) (h.move_ok (by omega) hv)

/-- One more request, whatever its answer. -/
theorem X24Opened.performs_then (h : X24Opened c value second t) (hn : vals.length ≤ 6) (hack : x24Acked vals)
    (hm : Move r (t.x24At vals.length) u) :
    Performs (exchanges c.x24Bus (x24Prims c value second) (oks vals ++ [r])) t u :=
  h.performs_concat hn (h.performs hn hack) hm

/-- A fault of Start or of a byte (41_sequencer_fsm.md R173, R174). OPEN is set already unless it is Start that is faulted. -/
theorem X24Opened.move_fault (h : X24Opened c value second t) (info : PFInfo) (hn : n ≤ 5)
    (hc : n = 0 → c.stopAfterStartFault = true) : Move (.fault info) (t.x24At n) (raisePrimFault info (setOpen true (t.x24At n))) := by
  match n with
  | 0 => exact .startFault info t h.st (h.cfg ▸ hc rfl)
  | 1 => exact .fault info (t.x24At 1) (.inl rfl)
  | 2 => exact .fault info (t.x24At 2) (.inr (.inr (.inl rfl)))
  | 3 | 4 | 5 => exact .fault info (t.x24At _) (.inr (.inr (.inr (.inl rfl))))

/-! ## The end of the command -/

/-- By the exchanges `es` the command that runs in `t` ends with this STATUS and PFINFO. IDX and the count of the free values are left
open (log 5). -/
def EndsWith (es : List Exchange) (t : State) (status : Status) (info : PFInfo) : Prop :=
  ∃ idx free, Performs es t { t with st := .idle, status := status, pfinfo := info, idx := idx, free := free }

/-- STATUS when the Stop that ends a command has been answered by `r`, `x` before it (41_sequencer_fsm.md R175, R176). -/
def Status.afterStop (x : Status) (r : Response) : Status := { x with done := true, busOpen := false, pf := x.pf || r.faulted }

/-- The Stop of the second transaction, of a transaction that failed, or that is itself faulted, ends the command (41_sequencer_fsm.md
R176). -/
theorem move_stopped (hst : t.st = .stop)
    (hends : t.status.useq = true ∨ t.status.err = true ∨ t.status.pf = true ∨ r.faulted = true) :
    Move r t (goto .idle { t with status := t.status.afterStop r, pfinfo := r.infoAfter t.pfinfo }) := by
  have hchains : chains (recordIfFault r (setOpen false t)) = false := by
    rw [recordIfFault_eq, Bool.eq_false_iff, ne_eq, chains_iff]
    obtain h | h | h | h := hends <;> simp [h, setOpen]
  have hm := Move.stopped r t hst hchains
  rw [recordIfFault_eq] at hm
  exact hm

theorem performs_last_stop (hst : t.st = .stop)
    (hends : t.status.useq = true ∨ t.status.err = true ∨ t.status.pf = true ∨ r.faulted = true) :
    Performs [⟨⟨t.td.bus, .stop⟩, r⟩] t (goto .idle { t with status := t.status.afterStop r, pfinfo := r.infoAfter t.pfinfo }) :=
  performs_one (by rw [request, hst]) (move_stopped hst hends)

/-- The Stop of a transaction in which nothing failed before it. -/
theorem X24Opened.ends_stop (h : X24Opened c value second t) (hn : vals.length = 6) (hack : x24Acked vals)
    (hends : t.status.useq = true ∨ r.faulted = true) :
    EndsWith (exchanges c.x24Bus (x24Prims c value second) (oks vals ++ [r])) t (t.status.afterStop r) (r.infoAfter t.pfinfo) := by
  obtain ⟨st, idx, free, busOpen, hat⟩ := t.x24At_frame vals.length
  have hst : (t.x24At vals.length).st = .stop := by rw [hn]; rfl
  have hm : Move r (t.x24At vals.length) _ := move_stopped hst (by rw [hat]; exact hends.imp_right (.inr ∘ .inr))
  have hp := h.performs_then hn.le hack hm
  rw [hat] at hp
  exact ⟨_, _, hp⟩

/-- A request before the Stop whose answer `a` raises an error, and the Stop after it. -/
theorem X24Opened.ends_failed {a : Response} {status : Status} {info : PFInfo} {idx : Half} {free : Nat}
    (h : X24Opened c value second t) (hn : vals.length ≤ 5) (hack : x24Acked vals) (hm : Move a (t.x24At vals.length) u)
    (hu : u = { t with st := .stop, status := status, pfinfo := info, idx := idx, free := free })
    (hfail : status.err = true ∨ status.pf = true) (r : Response) :
    EndsWith (exchanges c.x24Bus ((x24Prims c value second).take (vals.length + 1) ++ [.stop]) (oks vals ++ [a, r])) t
      (status.afterStop r) (r.infoAfter info) := by
  have hbus : u.td.bus = c.x24Bus := by rw [hu, h.td]
  have hstop := performs_last_stop (r := r) (t := u) (by rw [hu]) (by rw [hu]; exact .inr (hfail.imp_right .inl))
  have hlen : (oks vals ++ [a]).length = vals.length + 1 := by simp
  rw [← hlen, List.append_cons (oks vals) a [r], exchanges_take_append (by rw [hlen, length_x24Prims]; omega), ← hbus]
  have hp := h.performs_then (by omega) hack hm
  rw [← hbus] at hp
  subst hu
  exact ⟨_, _, hp.trans hstop⟩

theorem X24Opened.nackRaises (h : X24Opened c value second t) (h1 : 1 ≤ n) (h5 : n ≤ 5) : NackRaises (t.x24At n) (x24Phase n) := by
  match n with
  | 1 => exact .inl ⟨rfl, rfl, .inr (.inl (congrArg TD.kind h.td))⟩
  | 2 => exact .inr (.inr (.inr (.inl ⟨rfl, rfl⟩)))
  | 3 | 4 | 5 => exact .inr (.inr (.inr (.inr (.inl ⟨rfl, rfl, .inr (congrArg TD.flag h.td)⟩))))

/-- A byte of a transaction that is not acknowledged (60_exceptions.md R263). -/
theorem X24Opened.ends_nack (h : X24Opened c value second t) (h1 : 1 ≤ vals.length) (h5 : vals.length ≤ 5) (hack : x24Acked vals)
    {v : Half} (hv : ackOf v = false) (r : Response) :
    EndsWith (exchanges c.x24Bus ((x24Prims c value second).take (vals.length + 1) ++ [.stop]) (oks vals ++ [.ok v, r])) t
      ({ t.status with err := true, phase := x24Phase vals.length }.afterStop r) (r.infoAfter t.pfinfo) := by
  obtain ⟨st, idx, free, busOpen, hat⟩ := t.x24At_frame vals.length
  have hu := congrArg (raiseProtocolError (x24Phase vals.length)) hat
  have hends := h.ends_failed h5 hack (.nack v _ _ hv (h.nackRaises h1 h5)) hu (.inl rfl) r
  exact hends

/-- A fault of Start or of a byte (41_sequencer_fsm.md R173, R174; 60_exceptions.md R266). -/
theorem X24Opened.ends_fault (h : X24Opened c value second t) (h5 : vals.length ≤ 5) (hack : x24Acked vals)
    (hc : vals.length = 0 → c.stopAfterStartFault = true) (info : PFInfo) (r : Response) :
    EndsWith (exchanges c.x24Bus ((x24Prims c value second).take (vals.length + 1) ++ [.stop]) (oks vals ++ [.fault info, r])) t
      ({ t.status with pf := true }.afterStop r) (r.infoAfter info) := by
  obtain ⟨st, idx, free, busOpen, hat⟩ := t.x24At_frame vals.length
  have hu := congrArg (raisePrimFault info ∘ setOpen true) hat
  have hends := h.ends_failed h5 hack (h.move_fault info h5 hc) hu (.inr rfl) r
  exact hends

end Transaction

/-! ## The two transactions -/

/-- The state after the issue of X24SET: its first transaction is about to open (41_sequencer_fsm.md R163). -/
def x24First (value : BitVec 24) (s : State) : State :=
  openTransaction ⟨.wrm, s.cfg.x24Bus, s.cfg.x24Addr, s.cfg.x24DirSub, true, 3, .xb⟩
    { latchCommand (.x24set value) s with xb := s.cfg.x24DirBytes }

theorem exec_x24set (value : BitVec 24) (s : State) : exec (.x24set value) s = .next (x24First value s) := rfl

/-- The state in which the first, or the second, transaction of X24SET is about to open. -/
def x24Opening (value : BitVec 24) (second : Bool) (s : State) : State :=
  if second then secondTransaction (setOpen false ((x24First value s).x24At 6)) else x24First value s

section Command

variable {s : State} {value : BitVec 24} {second : Bool} {first : List Half}

theorem x24Opening_eq (value : BitVec 24) (second : Bool) (s : State) : ∃ idx free busOpen,
    x24Opening value second s = { s with
      st := .start, cmd := encode (.x24set value), idx := idx, free := free
      td := ⟨.wrm, s.cfg.x24Bus, s.cfg.x24Addr, x24Sub s.cfg second, true, 3, .xb⟩, xb := x24Bytes s.cfg value second
      status := { s.status.cleared with useq := second, busOpen := busOpen } } := by
  cases second with
  | false => exact ⟨_, _, _, rfl⟩
  | true =>
    have hbytes : x24Bytes s.cfg value true = wireBytes s.cfg.x24Lanes (immField (encode (.x24set value))) := by
      rw [encode, immField_encodeD]; rfl
    rw [hbytes]
    exact ⟨_, _, _, rfl⟩

theorem x24Opening_status (value : BitVec 24) (second : Bool) (s : State) : (x24Opening value second s).status =
    { s.status.cleared with useq := second, busOpen := (x24Opening value second s).status.busOpen } := by
  cases second <;> rfl

theorem x24Opening_pfinfo (value : BitVec 24) (second : Bool) (s : State) : (x24Opening value second s).pfinfo = s.pfinfo := by
  cases second <;> rfl

theorem x24Opening_opened (value : BitVec 24) (second : Bool) (s : State) :
    X24Opened s.cfg value second (x24Opening value second s) := by
  obtain ⟨idx, free, busOpen, h⟩ := x24Opening_eq value second s
  rw [h]
  exact ⟨rfl, rfl, rfl, rfl⟩

/-- What comes before the transaction: nothing, or the first one without failure (41_sequencer_fsm.md R176). -/
theorem performs_x24Opening (hfirst : first.length = if second then 7 else 0) (hack : x24Acked first) :
    Performs (exchanges s.cfg.x24Bus (x24Prims s.cfg value false) (oks first)) (x24First value s) (x24Opening value second s) := by
  cases second with
  | false =>
    obtain rfl := List.length_eq_zero_iff.1 hfirst
    exact performs_nil _
  | true =>
    obtain rfl | ⟨vals, v, rfl⟩ := List.eq_nil_or_concat' first
    · simp at hfirst
    have hn : vals.length = 6 := by simpa using hfirst
    have hm : Move (.ok v) ((x24First value s).x24At 6) (x24Opening value true s) :=
      .again (.ok v) _ rfl ((chains_iff _).2 ⟨opField_encodeD .., rfl, rfl, rfl⟩)
    rw [← hn] at hm
    rw [oks_concat]
    exact (x24Opening_opened value false s).performs_then hn.le hack.init_last.1 hm

/-- The command in the form of the statements. -/
theorem x24set_completes {made : List Prim} {vals : List Half} {tail rest : List Response} {status : Status} {info : PFInfo}
    (hidle : s.st = .idle) (hfirst : first.length = if second then 7 else 0) (hack : x24Acked first)
    (hends : EndsWith (exchanges s.cfg.x24Bus made (oks vals ++ tail)) (x24Opening value second s) status info)
    (ha : s.answers = oks first ++ oks vals ++ tail ++ rest) (hmade : vals.length + tail.length ≤ made.length) :
    ∃ t u, exec (.x24set value) s = .next t ∧ Runs (first.length + vals.length + tail.length) t u ∧ u = { s with
      cmd := encode (.x24set value), td := ⟨.wrm, s.cfg.x24Bus, s.cfg.x24Addr, x24Sub s.cfg second, true, 3, .xb⟩
      xb := x24Bytes s.cfg value second, status := status, pfinfo := info, answers := rest
      trace := s.trace ++ exchanges s.cfg.x24Bus (x24Prims s.cfg value false) (oks first) ++
        exchanges s.cfg.x24Bus made (oks vals ++ tail)
      idx := u.idx, free := u.free } := by
  obtain ⟨idx, free, hend⟩ := hends
  have hopen : (oks first).length ≤ (x24Prims s.cfg value false).length := by
    rw [length_oks, hfirst, length_x24Prims]; split <;> omega
  have hmade' : (oks vals ++ tail).length ≤ made.length := by simpa using hmade
  obtain ⟨t, u, hexec, hruns, hu⟩ := completes_of_performs (rest := rest) (k := first.length + vals.length + tail.length)
    (exec_x24set value s) ((performs_x24Opening hfirst hack).trans hend)
    (by rw [List.map_append, map_response_exchanges hopen, map_response_exchanges hmade', ← List.append_assoc]; exact ha)
    hidle.symm (by simp [length_exchanges hopen, length_exchanges hmade', Nat.add_assoc]) (List.append_assoc ..).symm
  obtain ⟨_, _, _, hopening⟩ := x24Opening_eq value second s
  rw [hopening] at hu
  exact ⟨t, u, hexec, hruns, hu⟩

end Command

/-! ## The statements -/

/-- Settles O37: the first transaction opens the second, whose Stop ends the command because USEQ = 1. -/
theorem x24setCompletes : Obligations.X24setCompletes := by
  intro s value v0 v1 v2 v3 v4 v5 v6 v7 v8 v9 v10 v11 v12 v13 rest hidle hack ha
  have hfirst : x24Acked [v0, v1, v2, v3, v4, v5, v6] := x24Acked_of_writes fun v hv => hack v (List.mem_append_left _ hv)
  have hsecond : x24Acked [v7, v8, v9, v10, v11, v12] :=
    x24Acked_of_writes fun v hv => hack v (List.mem_append_right [v1, v2, v3, v4, v5] hv)
  have hends := (x24Opening_opened value true s).ends_stop (r := .ok v13) rfl hsecond (.inl (by rw [x24Opening_status]))
  rw [x24Opening_status, x24Opening_pfinfo] at hends
  obtain ⟨t, u, hexec, hruns, hu⟩ := x24set_completes (rest := rest) hidle rfl hfirst hends ha (Nat.le_refl 7)
  refine ⟨t, u, hexec, hruns, hu.trans ?_⟩
  simp only [List.append_assoc]
  rfl

/-- Settles O38: `second` says which transaction fails, and the three clauses are the three ways in which one ends. -/
theorem x24setPartialFailure : Obligations.X24setPartialFailure := by
  intro s value second first vals rest hidle hfirst hackFirst hack c n prims ended
  have hopened := x24Opening_opened value second s
  refine ⟨fun v r h1 h5 hv ha => ?nack, fun info r h5 hc ha => ?fault, fun info h6 ha => ?stop⟩
  case nack =>
    have hends := hopened.ends_nack h1 h5 hack hv r
    rw [x24Opening_status, x24Opening_pfinfo] at hends
    exact x24set_completes hidle hfirst hackFirst hends ha (by simp [length_x24Prims]; omega)
  case fault =>
    have hends := hopened.ends_fault h5 hack hc info r
    rw [x24Opening_status] at hends
    exact x24set_completes hidle hfirst hackFirst hends ha (by simp [length_x24Prims]; omega)
  case stop =>
    have hends := hopened.ends_stop h6 hack (r := .fault info) (.inr rfl)
    rw [x24Opening_status] at hends
    have hcompletes := x24set_completes hidle hfirst hackFirst hends ha (by simp [length_x24Prims]; omega)
    rwa [show vals.length = 6 from h6] at hcompletes

end Sys2Proof.Machine

/-! PROOF. The commands of the 8-bit expander (45_adapter_exp8.md R250 to R255): from their issue to their end, and beside the engine
commands that they stand for. After the issue the two runs differ in CMD only, and CMD matters in two places: the mask of S_SWSEL and
the second transaction of X24SET. `OnlyCmdDiffers` rules both out, so every step of the one run is a step of the other
(`OnlyCmdDiffers.step`); the host's next legal command, or a reset, gives both the same CMD again. -/

namespace Sys2Proof.Machine

theorem exec_x8drv (data : Byte) (s : State) : exec (.x8drv data) s =
    .next (openTransaction ⟨.wrb, s.cfg.x8Bus, s.cfg.x8Addr, data, true, 0, .buf⟩ (latchCommand (.x8drv data) s)) := rfl

theorem exec_x8sns (s : State) : exec .x8sns s =
    .next (openTransaction ⟨.rdb, s.cfg.x8Bus, s.cfg.x8Addr, 0, false, 1, .buf⟩ { latchCommand .x8sns s with rdata := 0 }) := rfl

/-! ## From the issue to the end -/

/-- A byte write up to its data byte (41_sequencer_fsm.md R166). -/
theorem performs_byte_header {s : State} (v0 : Half) {v1 : Half} (hst : s.st = .start) (hk : s.td.kind = .wrb) (hv : ackOf v1 = true) :
    Performs [⟨⟨s.td.bus, .start⟩, .ok v0⟩, ⟨⟨s.td.bus, .write s.td.addr⟩, .ok v1⟩] s (goto .data (goto .addr (setOpen true s))) :=
  .cons (performs_start v0 hst) <| performs_one (by simp [request, firstAddress, hk]) (.addrToData v1 _ rfl hk hv)

/-- Settles O39, by the acknowledges of the address and of the data byte, which X8DRV requires. -/
theorem x8drvCompletes : Obligations.X8drvCompletes := by
  intro s data v0 v1 v2 v3 rest hidle ha
  have hexec := exec_x8drv data s
  refine ⟨fun hv => ?sent, fun hv => ?nacked⟩
  case sent =>
    cases hv2 : v2.getLsbD 0 with
    | false =>
      exact completes_of_performs hexec
        (.trans (performs_byte_header v0 rfl rfl hv) <| .cons (performs_nack (p := .data) rfl (by simp [NackRaises]) hv2) <|
          performs_stop v3 rfl (chains_of_err rfl))
        ha hidle.symm
    | true =>
      exact completes_of_performs hexec
        (.trans (performs_byte_header v0 rfl rfl hv) <| .cons (performs_one rfl (.dataSent v2 _ rfl (.inl hv2))) <|
          performs_stop v3 rfl (chains_of_opField (by simp [encode])))
        ha hidle.symm
  case nacked =>
    exact completes_of_performs hexec (performs_address_nack (p := .addr) v0 v2 rfl rfl (by simp [NackRaises]) hv) ha hidle.symm

/-- Settles O40, by the acknowledge of the address; the one byte read is the last. -/
theorem x8snsCompletes : Obligations.X8snsCompletes := by
  intro s v0 v1 v2 v3 rest hidle ha
  have hexec := exec_x8sns s
  refine ⟨fun hv => ?read, fun hv => ?nacked⟩
  case read =>
    exact completes_of_performs hexec
      (.cons (performs_start v0 rfl) <| .cons (performs_one rfl (.addrToRead v1 _ rfl rfl hv)) <|
        .cons (performs_one rfl (.lastRead v2 _ _ rfl (.inl ⟨rfl, rfl⟩) rfl)) <|
        performs_stop v3 rfl (chains_of_opField (by simp [encode])))
      ha hidle.symm
  case nacked =>
    exact completes_of_performs hexec (performs_address_nack (p := .readAddr) v0 v2 rfl rfl (by simp [NackRaises]) hv) ha hidle.symm

/-! ## Beside the engine commands -/

/-- `s` with another word in CMD. -/
def State.withCmd (s : State) (c : Word) : State := { s with cmd := c }

@[simp] theorem State.withCmd_st (s : State) (c : Word) : (s.withCmd c).st = s.st := rfl
@[simp] theorem State.withCmd_idx (s : State) (c : Word) : (s.withCmd c).idx = s.idx := rfl
@[simp] theorem State.withCmd_td (s : State) (c : Word) : (s.withCmd c).td = s.td := rfl
@[simp] theorem sourceByte_withCmd (s : State) (c : Word) : sourceByte (s.withCmd c) = sourceByte s := rfl

section WithCmd

variable {s t : State} {c : Word}

theorem Stores.withCmd {v : Byte} (h : Stores v s t) (c : Word) : Stores v (s.withCmd c) (t.withCmd c) := by
  obtain ⟨hk, rfl⟩ | ⟨hk, hi, rfl⟩ := h
  · exact .inl ⟨hk, rfl⟩
  · exact .inr ⟨hk, hi, rfl⟩

/-- CMD decides a request in S_SWSEL only (41_sequencer_fsm.md R180). -/
theorem request_withCmd (hst : s.st ≠ .swsel) (c : Word) : request (s.withCmd c) = request s := by
  cases h : s.st
  case swsel => exact absurd h hst
  all_goals simp [request, h]

/-- No move looks at CMD but the one that opens the second transaction of X24SET (41_sequencer_fsm.md R176). -/
theorem Move.withCmd {r : Response} (h : Move r s t) (hs : opField s.cmd ≠ 0xA) (hc : opField c ≠ 0xA) :
    Move r (s.withCmd c) (t.withCmd c) := by
  cases h
  case subToStop ha h hk hn => exact .subToStop _ _ h hk ha hn
  case lastSent h hl ha => exact .lastSent _ _ h hl ha
  case addrRToStop ha h hn => exact .addrRToStop _ _ h ha hn
  case addrRToRead ha h hn => exact .addrRToRead _ _ h ha hn
  case lastRead u h hst hl => exact .lastRead _ _ (u.withCmd c) h (hst.withCmd c) hl
  case byteRead u h hst hl => exact .byteRead _ _ (u.withCmd c) h (hst.withCmd c) hl
  case again h hchains => cases r <;> exact absurd ((chains_iff _).1 hchains).1 hs
  case stopped h _ => cases r <;> exact .stopped _ _ h (chains_of_opField hc)
  case selected h => cases r <;> exact .selected _ _ h
  all_goals constructor <;> assumption

/-- The issue of a legal command overwrites CMD; an illegal one leaves it alone (41_sequencer_fsm.md R162). -/
theorem issue_withCmd {i : Instr} {legal : Bool} {setUp : State → State} (h : issue i legal setUp s = .next t) (c : Word) :
    issue i legal setUp (s.withCmd c) = .next t ∨
      (t = illegalCommand s ∧ issue i legal setUp (s.withCmd c) = .next (t.withCmd c)) := by
  cases legal with
  | false => cases h; exact .inr ⟨rfl, rfl⟩
  | true => cases h; exact .inl rfl

theorem exec_withCmd {i : Instr} (h : exec i s = .next t) (c : Word) :
    exec i (s.withCmd c) = .next t ∨ (t = illegalCommand s ∧ exec i (s.withCmd c) = .next (t.withCmd c)) := by
  cases i <;>
    simp only [exec, execPoll, execWrb, execRdb, execWrm, execRdm, execSwsel, execSwdes, execX24set, execX8drv, execX8sns] at h ⊢ <;>
    exact issue_withCmd h c

/-- A host operation gives CMD a value of its own, or leaves it and ST alone (10_state.md R53, R57). -/
theorem hostStep_withCmd {op : HostOp} (h : hostStep op s = .next t) (c : Word) :
    hostStep op (s.withCmd c) = .next t ∨
      (t.cmd = s.cmd ∧ t.st = s.st ∧ hostStep op (s.withCmd c) = .next (t.withCmd c)) := by
  cases op with
  | issue w =>
    simp only [hostStep, issueWord] at h ⊢
    split at h
    · exact (exec_withCmd h c).imp_right fun ⟨ht, hexec⟩ => ⟨by rw [ht]; rfl, by rw [ht]; rfl, hexec⟩
    · cases h; exact .inr ⟨rfl, rfl, rfl⟩
  | setLen v => cases h; exact .inr ⟨rfl, rfl, rfl⟩
  | bufWrite i v =>
    simp only [hostStep, hostBufWrite, bufWrite] at h ⊢
    split at h
    · cases h; exact .inr ⟨rfl, rfl, if_pos ‹_›⟩
    · cases h
  | reset => cases h; exact .inl rfl

end WithCmd

/-- `t` is `s`, or `s` with another word in CMD where the block's moves do not depend on which of the two it is. -/
def OnlyCmdDiffers (s t : State) : Prop :=
  t = s ∨ ∃ c, t = s.withCmd c ∧ opField s.cmd ≠ 0xA ∧ opField c ≠ 0xA ∧ s.st ≠ .swsel

section OnlyCmdDiffers

variable {s t u : State}

theorem OnlyCmdDiffers.sameButCmd (h : OnlyCmdDiffers s t) : SameButCmd s t := by
  obtain rfl | ⟨c, rfl, _⟩ := h <;> rfl

theorem OnlyCmdDiffers.step (h : OnlyCmdDiffers s t) (hstep : step s = .next u) : ∃ w, step t = .next w ∧ OnlyCmdDiffers u w := by
  obtain rfl | ⟨c, rfl, hs, hc, hst⟩ := h
  · exact ⟨u, hstep, .inl rfl⟩
  obtain ⟨hi, hh, rfl⟩ | ⟨op, rest, hi, hh, hop⟩ | ⟨hb, ha, rfl⟩ | ⟨q, r, rest, hb, ha, hq, hr⟩ := step_cases hstep
  · exact ⟨_, step_idle_nil _ hi hh, .inr ⟨c, rfl, hs, hc, hst⟩⟩
  · have htaken := step_idle_cons (s.withCmd c) op rest hi hh
    obtain hop | ⟨hcmd, hst', hop⟩ := hostStep_withCmd hop c
    · exact ⟨u, htaken.trans hop, .inl rfl⟩
    · exact ⟨_, htaken.trans hop, .inr ⟨c, rfl, hcmd ▸ hs, hc, hst' ▸ hst⟩⟩
  · exact ⟨_, step_unanswered _ hb ha, .inr ⟨c, rfl, hs, hc, hst⟩⟩
  · have hm := respond_move hr
    refine ⟨_, (step_answered (s.withCmd c) q r rest hb ha ?_).trans (hm.withCmd hs hc).respond, .inr ⟨c, rfl, ?_, hc, ?_⟩⟩
    · rw [request_withCmd hst, hq]
    · rwa [(move_sameFixed hm).1]
    · exact move_st_ne_swsel hm

theorem OnlyCmdDiffers.runs {k : Nat} (h : OnlyCmdDiffers s t) (hruns : Runs k s u) : ∃ w, Runs k t w ∧ OnlyCmdDiffers u w := by
  induction k generalizing s t with
  | zero => cases hruns; exact ⟨t, runs_zero t, h⟩
  | succ k ih =>
    obtain ⟨m, hstep, hrest⟩ := hruns
    obtain ⟨m', hstep', hm⟩ := h.step hstep
    obtain ⟨w, hruns', hw⟩ := ih hm hrest
    exact ⟨w, runs_succ hstep' hruns', hw⟩

end OnlyCmdDiffers

/-- An expander command and its engine command leave the issue in states that differ in CMD only (41_sequencer_fsm.md R163). -/
theorem exec_expander_onlyCmdDiffers {s a b : State} {i j : Instr} {data : Byte} (hbus : s.cfg.x8Bus.toNat < s.cfg.nbus)
    (hij : (i = .x8drv data ∧ j = .wrb true s.cfg.x8Bus s.cfg.x8Addr data) ∨ (i = .x8sns ∧ j = .rdb s.cfg.x8Bus s.cfg.x8Addr))
    (ha : exec i s = .next a) (hb : exec j s = .next b) : OnlyCmdDiffers a b := by
  obtain ⟨rfl, rfl⟩ | ⟨rfl, rfl⟩ := hij
  · cases ha
    cases (exec_wrb true s.cfg.x8Addr data hbus).symm.trans hb
    exact .inr ⟨encode (.wrb true s.cfg.x8Bus s.cfg.x8Addr data), rfl, by simp [encode], by simp [encode], by simp⟩
  · cases ha
    cases (exec_rdb s.cfg.x8Addr hbus).symm.trans hb
    exact .inr ⟨encode (.rdb s.cfg.x8Bus s.cfg.x8Addr), rfl, by simp [encode], by simp [encode], by simp⟩

/-- Settles O41: the issues lead to states that differ in CMD only, and each step keeps them so. -/
theorem expanderCommandsAreEngineCommands : Obligations.ExpanderCommandsAreEngineCommands := by
  intro s i j data a b hbus hij ha hb k u hruns
  obtain ⟨w, hruns', hw⟩ := (exec_expander_onlyCmdDiffers hbus hij ha hb).runs hruns
  exact ⟨w, hruns', hw.sameButCmd⟩

end Sys2Proof.Machine

/-! PROOF. Errors and faults (60_exceptions.md R260 to R267). A BusProtocolError has one row among the moves, `nack`, whose causes are
those of `NackRaises`; the invariant leaves of them the rows of R263. Fault information is only copied: every operation of the machine
commutes with `State.mapInfo`, from the updates up to the step. -/

namespace Sys2Proof.Machine

/-! ## The outcome -/

/-- Settles O60, by the bits of STATUS in the order they are read. -/
theorem outcomeIsReadInThisOrder : Obligations.OutcomeIsReadInThisOrder := by
  intro s
  refine ⟨fun hill => ?_, fun hill hpf => ?_, fun hill hpf herr => ?_, fun hill hpf herr => ?_⟩ <;> simp [outcome, *]

/-! ## The cause of a protocol error -/

section Cause

variable {s t : State} {p : Phase}

/-- The issue of a command leaves ERR = 0, whether the command is legal or not (41_sequencer_fsm.md R162). -/
theorem exec_err {i : Instr} (h : exec i s = .next t) : t.status.err = false := by
  cases hwf : i.wellFormed s.cfg s.len with
  | false =>
    cases (exec_illFormed i s hwf).symm.trans h
    rfl
  | true =>
    obtain ⟨u, hu, hissued⟩ := exec_wellFormed hwf
    cases hu.symm.trans h
    rw [hissued.status]; rfl

/-- No operation of the host and no reset sets ERR. -/
theorem hostStep_err {op : HostOp} (h : hostStep op s = .next t) (hs : s.status.err = false) : t.status.err = false := by
  cases op with
  | issue w =>
    simp only [hostStep, issueWord] at h
    split at h
    · exact exec_err h
    · cases h; rfl
  | setLen v => cases h; exact hs
  | bufWrite i v =>
    obtain rfl := eq_of_bufWrite_next h
    exact hs
  | reset => cases h; rfl

/-- The one move that sets ERR is that of an unmet acknowledge (60_exceptions.md R262, R263). -/
theorem move_raises {r : Response} (h : Move r s t) (hs : s.status.err = false) (ht : t.status.err = true) :
    ∃ v p, r = .ok v ∧ ackOf v = false ∧ NackRaises s p ∧ t = raiseProtocolError p s := by
  cases h
  case nack v p ha hn => exact ⟨v, p, rfl, ha, hn, rfl⟩
  case lastRead hstores _ => rw [hstores.eq_update] at ht; simp [hs] at ht
  case byteRead hstores _ => rw [hstores.eq_update] at ht; simp [hs] at ht
  all_goals simp [recordIfFault_eq, hs] at ht

/-- An unmet acknowledge is that of a Write on the bus of the transaction (60_exceptions.md R263). -/
theorem NackRaises.request_write {q : Request} (h : NackRaises s p) (hq : request s = .next q) : ∃ b, q = ⟨s.td.bus, .write b⟩ := by
  cases hst : s.st <;> simp only [request, hst] at hq
  case addr | data | sub | addrR => cases hq; exact ⟨_, rfl⟩
  case wdata =>
    split at hq <;> cases hq
    exact ⟨_, rfl⟩
  all_goals simp [NackRaises, hst] at h

/-- The rows of 60_exceptions.md R263: phase, state, kind of transaction and flag of each protocol error. -/
def ErrorRow (s : State) (p : Phase) : Prop :=
  (p = .addr ∧ s.st = .addr ∧ (s.td.kind = .wrb ∨ s.td.kind = .wrm ∨ s.td.kind = .rdm)) ∨
  (p = .data ∧ s.st = .data ∧ s.td.kind = .wrb ∧ s.td.flag = true) ∨
  (p = .data ∧ s.st = .wdata ∧ s.td.kind = .wrm ∧ (s.idx.toNat + 1 < s.td.n.toNat ∨ s.td.flag = true)) ∨
  (p = .subaddr ∧ s.st = .sub ∧ (s.td.kind = .wrm ∨ s.td.kind = .rdm)) ∨
  (p = .readAddr ∧ s.st = .addr ∧ s.td.kind = .rdb) ∨
  (p = .readAddr ∧ s.st = .addrR ∧ s.td.kind = .rdm)

/-- In a legal run the state of the sequencer names the kind of transaction, and a byte of S_WDATA that is not the last has one after
it. -/
theorem Invariant.errorRow (hinv : Invariant s) (h : NackRaises s p) : ErrorRow s p := by
  have hallows := hinv.allows
  obtain h | ⟨hp, hst, hk⟩ | ⟨hp, hst, hf⟩ | ⟨hp, hst⟩ | ⟨hp, hst, hl⟩ | ⟨hp, hst⟩ := h
  · exact .inl h
  all_goals simp only [hst, SeqState.allows, Bool.or_eq_true, beq_iff_eq] at hallows
  · exact .inr (.inr (.inr (.inr (.inl ⟨hp, hst, hk⟩))))
  · exact .inr (.inl ⟨hp, hst, hallows, hf⟩)
  · exact .inr (.inr (.inr (.inl ⟨hp, hst, hallows⟩)))
  · have hidx := hinv.indexLive (.inl hst)
    have hmore (hl : isLast s.idx s.td.n = false) : s.idx.toNat + 1 < s.td.n.toNat := by
      have hne := of_decide_eq_false hl
      omega
    exact .inr (.inr (.inl ⟨hp, hst, hallows, hl.imp_left hmore⟩))
  · exact .inr (.inr (.inr (.inr (.inr ⟨hp, hst, hallows⟩))))

end Cause

/-- Settles O56: only an answered request sets ERR, by the move of an unmet acknowledge, whose rows the invariant narrows. -/
theorem everyProtocolErrorHasItsCause : Obligations.EveryProtocolErrorHasItsCause := by
  intro s t hinv hstep hs ht
  obtain ⟨_, _, rfl⟩ | ⟨op, rest, _, _, hop⟩ | ⟨_, _, rfl⟩ | ⟨q, r, rest, _, _, hq, hr⟩ := step_cases hstep
  · simp [hs] at ht
  · simp [hostStep_err hop hs] at ht
  · simp [hs] at ht
  · obtain ⟨v, p, rfl, ha, hn, rfl⟩ := move_raises (respond_move hr) hs ht
    obtain ⟨b, rfl⟩ := NackRaises.request_write (s := s) hn hq
    exact ⟨b, v, rfl, ha, rfl, hinv.errorRow hn⟩

/-! ## Fault information -/

section MapInfo

variable (f : PFInfo → PFInfo) (s : State)

@[simp] theorem State.mapInfo_st : (s.mapInfo f).st = s.st := rfl
@[simp] theorem State.mapInfo_td : (s.mapInfo f).td = s.td := rfl
@[simp] theorem State.mapInfo_answers : (s.mapInfo f).answers = s.answers.map (Response.mapInfo f) := rfl

@[simp] theorem mapResult_next : mapResult f (.next s) = .next (s.mapInfo f) := rfl
@[simp] theorem mapResult_ite (c : Prop) [Decidable c] (x y : Result State) :
    mapResult f (if c then x else y) = if c then mapResult f x else mapResult f y := apply_ite ..

/-! ### The host port -/

theorem issue_mapInfo (i : Instr) (legal : Bool) {setUp : State → State} (h : ∀ u, setUp (u.mapInfo f) = (setUp u).mapInfo f) :
    issue i legal setUp (s.mapInfo f) = mapResult f (issue i legal setUp s) := by
  cases legal with
  | false => rfl
  | true => exact congrArg Host.Outcome.next (h (latchCommand i s))

theorem exec_mapInfo (i : Instr) : exec i (s.mapInfo f) = mapResult f (exec i s) := by
  cases i <;>
    simp only [exec, execPoll, execWrb, execRdb, execWrm, execRdm, execSwsel, execSwdes, execX24set, execX8drv, execX8sns] <;>
    exact issue_mapInfo f s _ _ fun _ => rfl

theorem bufWrite_mapInfo (i : Nat) (v : Byte) : bufWrite (s.mapInfo f) i v = mapResult f (bufWrite s i v) := by
  rw [bufWrite, bufWrite, mapResult_ite]; rfl

variable {f} in
/-- The reset input is the one operation that writes a piece of fault information of its own (log 6). -/
theorem hostStep_mapInfo {op : HostOp} (h : f ⟨0⟩ = ⟨0⟩ ∨ op ≠ .reset) :
    hostStep op (s.mapInfo f) = mapResult f (hostStep op s) := by
  cases op with
  | issue w =>
    simp only [hostStep, issueWord]
    split
    · exact exec_mapInfo f s _
    · rfl
  | setLen v => rfl
  | bufWrite i v => exact bufWrite_mapInfo f s i.toNat v
  | reset =>
    have hzero : f ⟨0⟩ = ⟨0⟩ := h.resolve_right (fun hne => hne rfl)
    simp [hostStep, hostReset, State.mapInfo, State.resetOf, hzero]

/-! ### The primitive steps -/

theorem exchange_mapInfo (q : Request) (r : Response) :
    exchange q (r.mapInfo f) (s.mapInfo f) = (exchange q r s).mapInfo f := by
  simp [exchange, State.mapInfo, List.map_tail]

/-- No request looks at fault information. -/
theorem request_mapInfo : request (s.mapInfo f) = request s := rfl

theorem recordIfFault_mapInfo (r : Response) : recordIfFault (r.mapInfo f) (s.mapInfo f) = (recordIfFault r s).mapInfo f := by
  cases r <;> rfl

/-- A fault raises PrimFault with its information; any other response carries none. -/
theorem onOk_mapInfo (r : Response) {k k' : Half → Result State} (h : ∀ v, k' v = mapResult f (k v)) :
    onOk (r.mapInfo f) (s.mapInfo f) k' = mapResult f (onOk r s k) := by
  cases r with
  | ok v => exact h v
  | fault info => rfl

theorem afterStart_mapInfo (r : Response) : afterStart (r.mapInfo f) (s.mapInfo f) = mapResult f (afterStart r s) := by
  cases r with
  | ok v => rfl
  | fault info => simp only [afterStart, Response.mapInfo, mapResult_ite]; rfl

theorem afterAddr_mapInfo (r : Response) : afterAddr (r.mapInfo f) (s.mapInfo f) = mapResult f (afterAddr r s) := by
  refine onOk_mapInfo f s r fun v => ?_
  cases hk : s.td.kind <;> simp only [State.mapInfo_td, hk]
  case poll => rfl
  all_goals rw [mapResult_ite]; rfl

theorem afterData_mapInfo (r : Response) : afterData (r.mapInfo f) (s.mapInfo f) = mapResult f (afterData r s) :=
  onOk_mapInfo f s r fun _ => by rw [mapResult_ite]; rfl

theorem afterSub_mapInfo (r : Response) : afterSub (r.mapInfo f) (s.mapInfo f) = mapResult f (afterSub r s) := by
  refine onOk_mapInfo f s r fun v => ?_
  rw [mapResult_ite]
  cases hk : s.td.kind <;> simp only [State.mapInfo_td, hk]
  case wrm => rw [mapResult_ite]; rfl
  all_goals rfl

theorem afterWdata_mapInfo (r : Response) : afterWdata (r.mapInfo f) (s.mapInfo f) = mapResult f (afterWdata r s) := by
  refine onOk_mapInfo f s r fun v => ?_
  rw [mapResult_ite, mapResult_ite]; rfl

theorem afterRestart_mapInfo (r : Response) : afterRestart (r.mapInfo f) (s.mapInfo f) = mapResult f (afterRestart r s) :=
  onOk_mapInfo f s r fun _ => rfl

theorem afterAddrR_mapInfo (r : Response) : afterAddrR (r.mapInfo f) (s.mapInfo f) = mapResult f (afterAddrR r s) := by
  refine onOk_mapInfo f s r fun v => ?_
  rw [mapResult_ite, mapResult_ite]; rfl

theorem storeRead_mapInfo (v : Byte) : storeRead v (s.mapInfo f) = mapResult f (storeRead v s) := by
  rw [storeRead, bufWrite_mapInfo, storeRead, mapResult_ite]; rfl

theorem afterRead_mapInfo (r : Response) : afterRead (r.mapInfo f) (s.mapInfo f) = mapResult f (afterRead r s) := by
  refine onOk_mapInfo f s r fun v => ?_
  rw [storeRead_mapInfo]
  cases storeRead (dataOf v) s with
  | next t => rw [mapResult_ite]; rfl
  | fault e => rfl
  | refused x => rfl

theorem afterStop_mapInfo (r : Response) : afterStop (r.mapInfo f) (s.mapInfo f) = mapResult f (afterStop r s) := by
  have hrecord : recordIfFault (r.mapInfo f) (setOpen false (s.mapInfo f)) = (recordIfFault r (setOpen false s)).mapInfo f :=
    recordIfFault_mapInfo f (setOpen false s) r
  simp only [afterStop, hrecord, mapResult_ite]; rfl

theorem afterSwsel_mapInfo (r : Response) : afterSwsel (r.mapInfo f) (s.mapInfo f) = mapResult f (afterSwsel r s) := by
  rw [afterSwsel, recordIfFault_mapInfo]; rfl

/-- The move on a response copies the information of a fault and decides nothing by it (60_exceptions.md R266). -/
theorem respond_mapInfo (r : Response) : respond (r.mapInfo f) (s.mapInfo f) = mapResult f (respond r s) := by
  cases hst : s.st <;> simp only [respond, State.mapInfo_st, hst]
  case idle => rfl
  case start => exact afterStart_mapInfo f s r
  case addr => exact afterAddr_mapInfo f s r
  case data => exact afterData_mapInfo f s r
  case sub => exact afterSub_mapInfo f s r
  case wdata => exact afterWdata_mapInfo f s r
  case restart => exact afterRestart_mapInfo f s r
  case addrR => exact afterAddrR_mapInfo f s r
  case read => exact afterRead_mapInfo f s r
  case stop => exact afterStop_mapInfo f s r
  case swsel => exact afterSwsel_mapInfo f s r

theorem primitiveStep_mapInfo : primitiveStep (s.mapInfo f) = mapResult f (primitiveStep s) := by
  cases ha : s.answers with
  | nil => simp [primitiveStep, whenAnswered, ha]
  | cons r rest =>
    simp only [primitiveStep, whenAnswered, State.mapInfo_answers, ha, List.map_cons, request_mapInfo]
    cases request s with
    | next q => simp only [exchange_mapInfo, respond_mapInfo]
    | fault e => rfl
    | refused x => rfl

end MapInfo

/-- Settles O59: the primitive steps and the host's operations commute with the renaming; of these the reset input does where the
renaming keeps its PFINFO. -/
theorem faultInformationIsOnlyCopied : Obligations.FaultInformationIsOnlyCopied := by
  intro f s hreset
  by_cases hidle : s.st = .idle
  · cases hh : s.host with
    | nil => rw [step_idle_nil s hidle hh, step_idle_nil (s.mapInfo f) hidle hh, mapResult_next]
    | cons op rest =>
      rw [step_idle_cons s op rest hidle hh, step_idle_cons (s.mapInfo f) op rest hidle hh]
      exact hostStep_mapInfo { s with host := rest } (hreset.imp_right fun hne hop => hne (by rw [hh, hop]; rfl))
  · rw [step_of_busy s hidle, step_of_busy (s.mapInfo f) hidle, primitiveStep_mapInfo]

end Sys2Proof.Machine

/-! PROOF. The idle block and the reset input (70_reset_and_hazards.md R300 to R302; 10_state.md R57). -/

namespace Sys2Proof.Machine

/-- Of the host's operations only an issue takes the block out of IDLE (41_sequencer_fsm.md R160). -/
theorem hostStep_idle {op : HostOp} {s t : State} (hop : ∀ w, op ≠ .issue w) (hidle : s.st = .idle) (h : hostStep op s = .next t) :
    t.st = .idle := by
  cases op with
  | issue w => exact absurd rfl (hop w)
  | setLen v => cases h; exact hidle
  | bufWrite i v =>
    obtain rfl := eq_of_bufWrite_next h
    exact hidle
  | reset => cases h; rfl

/-- Settles O47: with nothing listed the step leads back to the same state; else the host's operation is taken, which leaves the port
alone and, not being an issue, keeps IDLE. -/
theorem nothingHappensAfterReset : Obligations.NothingHappensAfterReset := by
  refine ⟨fun c => rfl, fun s hidle hhost => ?nothingListed, fun s t hidle hnoIssue hstep => ?noIssue⟩
  case nothingListed =>
    have hself := step_idle_nil s hidle hhost
    have hruns := runs_iff_of_step_self hself
    exact ⟨hself, fun k => ⟨(hruns k s).2 rfl, fun t => (hruns k t).1⟩⟩
  case noIssue =>
    cases hhost : s.host with
    | nil =>
      rw [step_idle_nil s hidle hhost] at hstep
      cases hstep
      exact ⟨hidle, rfl, rfl⟩
    | cons op rest =>
      rw [step_idle_cons s op rest hidle hhost] at hstep
      have hop : ∀ w, op ≠ .issue w := fun w hw => hnoIssue w (by rw [hhost, hw, List.head?_cons])
      exact ⟨hostStep_idle (s := { s with host := rest }) hop hidle hstep, (samePort_hostStep hstep :)⟩

/-- Settles O48: the step takes the reset input, whose registers are those of `State.resetOf` (`resetValues`). -/
theorem resetInputRequestsNothing : Obligations.ResetInputRequestsNothing := by
  intro s rest hidle hhost
  obtain ⟨hst, hstatus, hrdata, hlen, hbuf, hcfg, _⟩ := resetValues s.cfg
  exact ⟨_, step_idle_cons s .reset rest hidle hhost, rfl, rfl, rfl, hcfg, hst, hstatus, hrdata, hlen, hbuf⟩

end Sys2Proof.Machine
